-- ==== Sys2Proof/Word.lean ====
section
/-! DEFINITION. The word types of the core: bytes, and bit strings held as bit vectors.

A bit string `v[0] .. v[n-1]` of the spec (00_scope.md R10) is a `BitVec n` whose bit `i` (`getLsbD i`) is `v[i]`. Only
where a rule reads a string as an unsigned integer does the order of weights matter; those places say so. -/

namespace Sys2Proof

/-- One byte of a command, a response or an event payload. -/
abbrev Byte := BitVec 8

/-- A received burst: 264 bits in time order (30_encoding.md R90). -/
abbrev Burst := BitVec 264

/-- A coded block: the 196 input bits of the FEC decoder (30_encoding.md R92). -/
abbrev Coded := BitVec 196

/-- The FEC working array `W[0..195]` (10_state.md R53). -/
abbrev Work := BitVec 196

/-- The circular bit buffer `BUF[0..575]` (10_state.md R36). -/
abbrev Buf := BitVec 576

end Sys2Proof
end

