-- ==== Sys2Proof/Syntax.lean ====
section
/-! DEFINITION. The commands of the core, one constructor per row of spec/opcode_table.json (30_encoding.md R110). -/

namespace Sys2Proof

/-- A command with its operands. The byte-string operands have the fixed lengths of R110, checked in WellFormed.lean. -/
inductive Instr where
  /-- `NOP`, opcode 0x00 (R280). -/
  | nop
  /-- `RESET`, opcode 0x01 (R282). -/
  | reset
  /-- `CONFIG`, opcode 0x02 (R283): the mode bit, the three reserved bits (any value, ignored: R114), the colour code,
  and the delay byte (R111). -/
  | config (mode : BitVec 1) (rsv : BitVec 3) (cc : BitVec 4) (delay : Byte)
  /-- `STATUS`, opcode 0x03 (R284). -/
  | status
  /-- `TXSYNC_POLL`, opcode 0x04 (R285). -/
  | txsyncPoll
  /-- `BIT` with received bit 0, opcode 0x10 (R211). -/
  | bit0
  /-- `BIT` with received bit 1, opcode 0x11 (R211). -/
  | bit1
  /-- `BPTC_DECODE`, opcode 0x20 (R146): 25 operand bytes, the last four bits of which are ignored (R113, R114). -/
  | bptcDecode (operand : List Byte)
  /-- `RS_CHECK`, opcode 0x21 (R175): the 12 codeword bytes. -/
  | rsCheck (codeword : List Byte)
  /-- `LC_DECODE` of kind VH, opcode 0x22 (R197): the 33 payload bytes of a burst. -/
  | lcDecodeVh (burst : List Byte)
  /-- `LC_DECODE` of kind TLC, opcode 0x23 (R197): the 33 payload bytes of a burst. -/
  | lcDecodeTlc (burst : List Byte)
deriving DecidableEq, Repr

end Sys2Proof
end

