-- ==== Sys2Proof/WellFormed.lean ====
section
/-! DEFINITION. Which terms of `Instr` are commands: the operand byte strings have the lengths of 30_encoding.md R110. -/

namespace Sys2Proof

/-- The number of operand bytes of R110 for the commands whose operand is a byte string. No operand VALUE is illegal
(R114), so the lengths are the only checks. -/
def Instr.wellFormed : Instr → Bool
  | .nop => true
  | .reset => true
  | .config _ _ _ _ => true
  | .status => true
  | .txsyncPoll => true
  | .bit0 => true
  | .bit1 => true
  | .bptcDecode operand => operand.length == 25
  | .rsCheck codeword => codeword.length == 12
  | .lcDecodeVh burst => burst.length == 33
  | .lcDecodeTlc burst => burst.length == 33

end Sys2Proof
end

