-- ==== Sys2Proof/Decode.lean ====
section
/-! DEFINITION. The command decoder, total on any bytes, and the encoder (30_encoding.md R110–R116). -/

namespace Sys2Proof

/-- What the decoder reads at the front of the command byte stream. -/
inductive Decoded where
  /-- A complete command and the bytes after it. -/
  | command (i : Instr) (rest : List Byte)
  /-- An opcode byte outside the table of R110: consumed alone, no operand bytes (R115, R303). -/
  | illegalOpcode (opcode : Byte) (rest : List Byte)
  /-- No byte, or an opcode whose operand bytes have not all arrived: not issued (R75, R304). -/
  | incomplete
deriving DecidableEq, Repr

/-- CONFIG's operand layout (R111): byte 0 is mode (bit 7), reserved (bits 6–4), colour code (bits 3–0); byte 1 the
delay. -/
def configOf (o0 o1 : Byte) : Instr :=
  .config (o0.extractLsb' 7 1) (o0.extractLsb' 4 3) (o0.extractLsb' 0 4) o1

/-- The table of R110: for a legal opcode, its number of operand bytes and the command they make. -/
def opcodeRow (opcode : Byte) : Option (Nat × (List Byte → Instr)) :=
  match opcode.toNat with
  | 0x00 => some (0, fun _ => .nop)
  | 0x01 => some (0, fun _ => .reset)
  | 0x02 => some (2, fun ops => configOf (ops.getD 0 0) (ops.getD 1 0))
  | 0x03 => some (0, fun _ => .status)
  | 0x04 => some (0, fun _ => .txsyncPoll)
  | 0x10 => some (0, fun _ => .bit0)
  | 0x11 => some (0, fun _ => .bit1)
  | 0x20 => some (25, fun ops => .bptcDecode ops)
  | 0x21 => some (12, fun ops => .rsCheck ops)
  | 0x22 => some (33, fun ops => .lcDecodeVh ops)
  | 0x23 => some (33, fun ops => .lcDecodeTlc ops)
  | _ => none

/-- Length decoding (R116): the opcode alone fixes the number of operand bytes; 0 for an illegal opcode. -/
def operandCount (opcode : Byte) : Nat :=
  match opcodeRow opcode with
  | some (n, _) => n
  | none => 0

/-- The decoder (R110, R115, R116): one opcode byte, then its fixed number of operand bytes. -/
def decode : List Byte → Decoded
  | [] => .incomplete
  | opcode :: bytes =>
    match opcodeRow opcode with
    | none => .illegalOpcode opcode bytes
    | some (n, make) =>
      let operands := bytes.take n
      if operands.length = n then .command (make operands) (bytes.drop n) else .incomplete

/-- The encoder: the opcode byte and the operand bytes of a command (R110, R111, R113). -/
def encode : Instr → List Byte
  | .nop => [0x00]
  | .reset => [0x01]
  | .config mode rsv cc delay => [0x02, (mode ++ rsv ++ cc : BitVec 8), delay]
  | .status => [0x03]
  | .txsyncPoll => [0x04]
  | .bit0 => [0x10]
  | .bit1 => [0x11]
  | .bptcDecode operand => 0x20 :: operand
  | .rsCheck codeword => 0x21 :: codeword
  | .lcDecodeVh burst => 0x22 :: burst
  | .lcDecodeTlc burst => 0x23 :: burst

/-- The bytes of a command given as a number with the first byte in bits 7–0: the low `nbits` bits of `w`, every bit above
them 0, up to the longest command (34 bytes), then cut to the length the opcode gives (R116). -/
def commandBytes (nbits w : Nat) : List Byte :=
  let v := w % 2 ^ nbits
  let all := (List.range 34).map fun k => BitVec.ofNat 8 (v >>> (8 * k))
  all.take (1 + operandCount (all.getD 0 0))

/-- The command the decoder reads from a table word: `none` where it refuses the opcode. -/
def decodeTableWord (nbits w : Nat) : Option Instr :=
  match decode (commandBytes nbits w) with
  | .command i _ => some i
  | .illegalOpcode _ _ => none
  | .incomplete => none

end Sys2Proof
end

