-- ==== Sys2Proof/Config.lean ====
section
/-! DEFINITION. The named parameters of 00_scope.md R8, as one structure every operation takes as an argument.
The values the core runs with (the spec's defaults) are `Sys2Proof.Machine.params` in Machine/Params.lean. -/

namespace Sys2Proof.Config

/-- The two roles of a sync template (30_encoding.md R104): base-station or mobile-station sourced. -/
inductive Role where
  | bs
  | ms
deriving DecidableEq, Repr

/-- The payload class of a sync template (30_encoding.md R104). -/
inductive SyncClass where
  | voice
  | data
deriving DecidableEq, Repr

/-- A 48-bit sync template, read as an integer whose most significant bit is the first sync bit received (R104). -/
structure SyncTemplate where
  role : Role
  cls : SyncClass
  value : BitVec 48
deriving DecidableEq, Repr

/-- A correlation match `(ROLE, CLASS, INVF)` (43_slot_receiver.md R218, R223). -/
structure SyncMatch where
  role : Role
  cls : SyncClass
  inverted : Bool
deriving DecidableEq, Repr

/-- The burst sub-type classes of 30_encoding.md R105. -/
inductive BurstClass where
  | piHeader
  | vlcHeader
  | tlc
  | dataHeader
  | rate12
  | rate34
  | rate1
  | shortControl
deriving DecidableEq, Repr

/-- `PASS_ORDER`: what a correction pass does first (40_fec_bptc.md R140). -/
inductive PassOrder where
  | rowsFirst
  | columnsFirst
deriving DecidableEq, Repr

/-- `EXTRACT_MAP`: which matrix cells hold the 96 information bits (40_fec_bptc.md R145). -/
inductive ExtractMap where
  | doc
  | etsi
deriving DecidableEq, Repr

/-- The named parameters of R8. `classify` is a parameter of the machine, never a part of its state. -/
structure Params where
  /-- `DEINT_MULT` (R132). -/
  deintMult : Nat
  /-- `PASS_ORDER` (R140). -/
  passOrder : PassOrder
  /-- `MAX_PASSES` (R140). -/
  maxPasses : Nat
  /-- `EXTRACT_MAP` (R145). -/
  extractMap : ExtractMap
  /-- `H15` (R135): for check `j`, the data positions XORed; the parity position of check `j` is `11 + j`. -/
  h15 : List (List Nat)
  /-- `RS_POLY` (R171): bit `k` is the coefficient of `x^k`. -/
  rsPoly : BitVec 9
  /-- `RS_B` (R173). -/
  rsB : Nat
  /-- `MASK_VH` (R193). -/
  maskVH : List Byte
  /-- `MASK_TLC` (R193). -/
  maskTLC : List Byte
  /-- The four `SYNC_*` templates, in the order of indices 0–3 (R104). -/
  syncTemplates : List SyncTemplate
  /-- `CORR_MAXDIST` (R221). -/
  corrMaxDist : Nat
  /-- `WINDOW` (R216). -/
  window : Nat
  /-- `LOSS_N_DUPLEX` (R243). -/
  lossNDuplex : Nat
  /-- `LOSS_N_SINGLE` (R243). -/
  lossNSingle : Nat
  /-- `UNLOCK_N` (R266). -/
  unlockN : Nat
  /-- `VOICE_LATE_ENTRY` (R233). -/
  voiceLateEntry : Bool
  /-- `TACT_POS` (R106, R252): the CACH positions of the seven TACT bits. -/
  tactPos : List Nat
  /-- `CLASSIFY` (R234): colour code and data type of a burst, reading nothing but the burst. -/
  classify : Burst → BitVec 4 × BitVec 4

/-- The restrictions the spec puts on parameter values: the multiplier is coprime to 196 (R132), at least one pass
is made (R140), the thresholds fit the counters they are compared with (R44, R48), four check equations and seven TACT
positions, three mask bytes. -/
abbrev Params.Legal (P : Params) : Prop :=
  Nat.Coprime P.deintMult 196 ∧ 1 ≤ P.maxPasses ∧ P.h15.length = 4 ∧
  P.maskVH.length = 3 ∧ P.maskTLC.length = 3 ∧
  1 ≤ P.lossNDuplex ∧ P.lossNDuplex ≤ 31 ∧ 1 ≤ P.lossNSingle ∧ P.lossNSingle ≤ 31 ∧
  1 ≤ P.unlockN ∧ P.unlockN ≤ 127 ∧
  P.tactPos.length = 7

end Sys2Proof.Config
end

