-- ==== Sys2Proof/Machine/State.lean ====
section
/-! DEFINITION. The state of the core as plain data (10_state.md), its responses and events, and the state at power-up. -/

namespace Sys2Proof.Machine

open Sys2Proof.Config (SyncClass)

/-- Why a step could stop with a fault. The spec gives the core none: "No command can fault" (60_exceptions.md R300), so
the type has no constructor. Safe: no step can answer a fault. -/
inductive Fault : Type
deriving DecidableEq, Repr

/-- Why a step could refuse. -/
inductive Refusal where
  /-- Raised by an arm of `exec` whose instruction has no meaning in this model. No arm raises it: every row of the opcode
  table has its meaning. Safe: the machine would stop where the core goes on. -/
  | notModelled (mnemonic : String)
deriving DecidableEq, Repr

/-- `CFG_MODE` (R35): duplex (0, two radios) or single-radio flywheel mode (1). -/
inductive Mode where
  | duplex
  | single
deriving DecidableEq, Repr

/-- A slot number, 0 or 1 (R46). -/
inductive SlotId where
  | zero
  | one
deriving DecidableEq, Repr

/-- The call state `ST` of a slot (R47). -/
inductive CallState where
  | idle
  | voice
  | data
deriving DecidableEq, Repr

/-- The burst kind of Link-Control extraction (30_encoding.md R102). -/
inductive LcKind where
  | vh
  | tlc
deriving DecidableEq, Repr

/-- How a Link-Control record was accepted (42_link_control.md R195). A rejected record has no such value. -/
inductive How where
  | parity
  | fallback
deriving DecidableEq, Repr

/-- The Link-Control output record (30_encoding.md R101). -/
structure LcRecord where
  pf : BitVec 1
  r : BitVec 1
  flco : BitVec 6
  fid : Byte
  so : Byte
  dst : BitVec 24
  src : BitVec 24
deriving DecidableEq, Repr

/-- One item of the output event stream (R55). -/
inductive Event where
  /-- A framed burst: slot, type byte (30_encoding.md R107), 33 payload bytes. -/
  | burst (slot : SlotId) (type : Byte) (payload : List Byte)
  /-- A validated Link-Control record. -/
  | lc (slot : SlotId) (kind : LcKind) (how : How) (record : LcRecord)
  /-- A sync-lost notification. -/
  | lost (slot : SlotId)
deriving DecidableEq, Repr

/-- The response of one command: a status byte and the payload (30_encoding.md R112). -/
structure Response where
  status : Byte
  payload : List Byte
deriving DecidableEq, Repr

/-- A slot record (R46–R52). -/
structure SlotRec where
  /-- `ST` (R47). -/
  st : CallState
  /-- `MISS`, the consecutive-sync-loss counter (R48). -/
  miss : BitVec 5
  /-- `N`, the voice superframe position (R49). -/
  n : BitVec 3
  /-- `TAG`, the data sub-type tag or NONE (R50). -/
  tag : Option (BitVec 4)
  /-- `ENDPOS`, the predicted period end or NONE (R51). -/
  endPos : Option (BitVec 10)
  /-- `EXPSYNC`, the position of the last matched sync or NONE (R51). -/
  expSync : Option (BitVec 10)
  /-- `SEEN`: a sync match was accepted since the last period end (R52). -/
  seen : Bool
  /-- `KIND`: the class of that match (R52). -/
  kind : SyncClass
  /-- `INV`: that match was of an inverted template (R52). -/
  inv : Bool
deriving DecidableEq, Repr

/-- Every field of a slot record at its reset value (R60). -/
def SlotRec.reset : SlotRec where
  st := .idle
  miss := 0
  n := 0
  tag := none
  endPos := none
  expSync := none
  seen := false
  kind := .data
  inv := false

/-- The state of the core (R30), with the two streams of its boundary. -/
structure State where
  /-- `CFG_CC` (R33). -/
  cfgCc : BitVec 4
  /-- `CFG_DELAY` (R34). -/
  cfgDelay : BitVec 8
  /-- `CFG_MODE` (R35). -/
  cfgMode : Mode
  /-- `BUF[0..575]` (R36): element `i` is bit `i`. -/
  buf : Buf
  /-- `PTR` (R37). -/
  ptr : BitVec 10
  /-- `PAT` (R38): the most recent bit is the least significant. -/
  pat : BitVec 64
  /-- `DELAYCNT` (R39). -/
  delayCnt : BitVec 8
  /-- `LOCKED` (R40). -/
  locked : Bool
  /-- `CURSLOT` (R41). -/
  curSlot : SlotId
  /-- `SLOTTIMER` (R42). -/
  slotTimer : BitVec 9
  /-- `MISMATCH` (R43). -/
  misMatch : BitVec 2
  /-- `NOSYNC` (R44). -/
  noSync : BitVec 7
  /-- `SYNCP` (R45). -/
  syncP : Bool
  /-- `SLOT[0]` (R46). -/
  slot0 : SlotRec
  /-- `SLOT[1]` (R46). -/
  slot1 : SlotRec
  /-- `BSSYNC` (R54). -/
  bsSync : Bool
  /-- The output event stream, oldest first (R55). -/
  events : List Event
  /-- The responses given so far, oldest first (30_encoding.md R112, 70_reset_and_hazards.md R333). The model's own
  field. DESIGN CHOICE, notes/assumptions/2.md: safe. -/
  responses : List Response
  /-- The command bytes that have arrived and are not yet performed, oldest first (30_encoding.md R110). The model's own
  field. DESIGN CHOICE, notes/assumptions/1.md: safe. -/
  input : List Byte
deriving DecidableEq, Repr

/-- The machine at power-up (70_reset_and_hazards.md R320, R60): duplex, colour code 0, delay 0, everything else at its
reset value, no event, no response, no command byte. -/
def State.reset : State where
  cfgCc := 0
  cfgDelay := 0
  cfgMode := .duplex
  buf := 0
  ptr := 0
  pat := 0
  delayCnt := 0
  locked := false
  curSlot := .zero
  slotTimer := 0
  misMatch := 0
  noSync := 0
  syncP := false
  slot0 := SlotRec.reset
  slot1 := SlotRec.reset
  bsSync := false
  events := []
  responses := []
  input := []

end Sys2Proof.Machine
end

