-- ==== Sys2Proof/Machine/Ops.lean ====
section
/-! DEFINITION. Operations shared by the commands: bit strings and bytes (00_scope.md R10, R11), positions of the circular
buffer (20_memory.md R79), access to the slot records, responses, events, and the two resets. -/

namespace Sys2Proof.Machine

/-! ### Bit strings -/

/-- The number whose bits 0 .. n-1 are `f 0 .. f (n-1)`. -/
def bitsToNat (f : Nat → Bool) : Nat → Nat
  | 0 => 0
  | k + 1 => bitsToNat f k + (if f k then 2 ^ k else 0)

/-- The bit string `v` of length `n` with `v[i] = f i`. -/
def ofBits (n : Nat) (f : Nat → Bool) : BitVec n := BitVec.ofNat n (bitsToNat f n)

/-- `bits(B, n)`: bit `i` of the string is bit `7 - (i mod 8)` of byte `i div 8` (R10, R72). -/
def bits (n : Nat) (bytes : List Byte) : BitVec n :=
  ofBits n fun i => (bytes.getD (i / 8) 0).getLsbD (7 - i % 8)

/-- `bytes(v)`: the first `count` bytes of a bit string, most significant bit first, padded with zero bits (R10). -/
def bytesOf {n : Nat} (count : Nat) (v : BitVec n) : List Byte :=
  (List.range count).map fun i => ofBits 8 fun j => v.getLsbD (8 * i + (7 - j))

/-- The unsigned integer of `v[start .. start+len-1]`, `v[start]` most significant (R10). -/
def fieldMsb {n : Nat} (v : BitVec n) (start len : Nat) : BitVec len :=
  ofBits len fun j => v.getLsbD (start + (len - 1 - j))

/-- `popcount(v)` (R11). -/
def popcount {n : Nat} (v : BitVec n) : Nat :=
  (List.range n).foldl (fun count i => if v.getLsbD i then count + 1 else count) 0

/-- `v` with bit `i` flipped. -/
def flipBit {n : Nat} (v : BitVec n) (i : Nat) : BitVec n := v ^^^ BitVec.twoPow n i

/-- `v` with bit `i` written. -/
def writeBit {n : Nat} (v : BitVec n) (i : Nat) (b : Bool) : BitVec n :=
  if b then v ||| BitVec.twoPow n i else v &&& ~~~ BitVec.twoPow n i

/-! ### Positions of the circular buffer -/

/-- A buffer position as a 10-bit value: `a mod 576` (R79). -/
def position (a : Nat) : BitVec 10 := BitVec.ofNat 10 (a % 576)

/-- The position of the bit received `k` bits before the one at `p`, for `k ≤ 576` (R79). -/
def backFrom (p : BitVec 10) (k : Nat) : Nat := (p.toNat + 576 - k) % 576

/-- `cdist(a, b)`: circular distance on 576 positions (R11). The added 1152 = 2 · 576 exceeds every 10-bit value. -/
def cdist (a b : BitVec 10) : Nat :=
  min ((a.toNat + 1152 - b.toNat) % 576) ((b.toNat + 1152 - a.toNat) % 576)

/-- `BUF[a mod 576]` (R79). -/
def bufBit (buf : Buf) (a : Nat) : Bool := buf.getLsbD (a % 576)

/-! ### Slot numbers and records -/

/-- `s XOR 1`. -/
def SlotId.other : SlotId → SlotId
  | .zero => .one
  | .one => .zero

/-- The slot a one-bit indicator names (30_encoding.md R106). -/
def SlotId.ofBit : Bool → SlotId
  | false => .zero
  | true => .one

/-- A slot number as one bit. -/
def SlotId.toBit : SlotId → BitVec 1
  | .zero => 0
  | .one => 1

/-- `CFG_MODE` as one bit (10_state.md R35). -/
def Mode.toBit : Mode → BitVec 1
  | .duplex => 0
  | .single => 1

/-- The mode a one-bit field selects (10_state.md R35). -/
def Mode.ofBit (b : BitVec 1) : Mode := if b = 0 then .duplex else .single

/-- The two-bit encoding of `ST` in STATUS (10_state.md R47). -/
def CallState.encoding : CallState → BitVec 2
  | .idle => 0
  | .voice => 1
  | .data => 2

/-- `SLOT[k]` (10_state.md R46). -/
def State.slot (s : State) : SlotId → SlotRec
  | .zero => s.slot0
  | .one => s.slot1

/-- Write the whole record `SLOT[k]`. -/
def State.setSlot (s : State) (k : SlotId) (r : SlotRec) : State :=
  match k with
  | .zero => { s with slot0 := r }
  | .one => { s with slot1 := r }

/-- Write fields of `SLOT[k]`. -/
def State.modifySlot (s : State) (k : SlotId) (f : SlotRec → SlotRec) : State := s.setSlot k (f (s.slot k))

/-- The slot record reset (10_state.md R61). -/
def State.resetSlot (s : State) (k : SlotId) : State := s.setSlot k SlotRec.reset

/-! ### Responses and events -/

/-- `respond(OK, payload)` (30_encoding.md R112). -/
def State.respondOk (s : State) (payload : List Byte) : State :=
  { s with responses := s.responses ++ [{ status := 0x00, payload := payload }] }

/-- The response to an illegal opcode: status ILLEGAL, no payload, no other change (30_encoding.md R115, 60_exceptions.md
R303). It is the core's one non-OK outcome: there is no trap to enter and none to return from (R300, R308). -/
def State.respondIllegal (s : State) : State :=
  { s with responses := s.responses ++ [{ status := 0xFF, payload := [] }] }

/-- `emit E` (00_scope.md R11, 10_state.md R55): events are appended, never dropped, reordered or merged. -/
def State.emit (s : State) (e : Event) : State := { s with events := s.events ++ [e] }

/-! ### Resets -/

/-- `BUF <- all 0; PAT <- 0`, the clear shared by a duplex sync loss (R244) and an unlock (R266). -/
def State.clearBits (s : State) : State := { s with buf := 0, pat := 0 }

/-- `RECEIVE_RESET()` (44_control.md R282): every element of 10_state.md R60 but the configuration and the streams. -/
def State.receiveReset (s : State) : State :=
  { s with
    buf := 0
    ptr := 0
    pat := 0
    delayCnt := s.cfgDelay
    locked := false
    curSlot := .zero
    slotTimer := 0
    misMatch := 0
    noSync := 0
    syncP := false
    bsSync := false
    slot0 := SlotRec.reset
    slot1 := SlotRec.reset }

end Sys2Proof.Machine
end

