-- ==== Sys2Proof/Machine/Command.lean ====
section
/-! DEFINITION. The command stream: taking the next command from it, and placing one at its front (30_encoding.md R110,
R115, R116; 44_control.md R281). -/

namespace Sys2Proof.Machine

/-- What the decoder reads at the front of the command stream. -/
def State.nextCommand (s : State) : Decoded := decode s.input

/-- The state with the command stream left after a command's bytes were taken. -/
def State.withInput (s : State) (rest : List Byte) : State := { s with input := rest }

/-- The stream with the command `w` of `nbits` bits (its operand bits above them 0) placed at its front. -/
def State.placeCommand (s : State) (nbits w : Nat) : State := s.withInput (commandBytes nbits w ++ s.input)

end Sys2Proof.Machine
end

