-- ==== Sys2Proof/Machine/Flags.lean ====
section
/-! DEFINITION. The flags a command reports or sets: `ACTIVE`, `BSSYNC`, the framed-burst type byte, the mode's loss threshold,
and the STATUS read-out. -/

namespace Sys2Proof.Machine

open Sys2Proof.Config (Params)

/-- `ACTIVE` (10_state.md R56): either slot is not IDLE. -/
def State.active (s : State) : Bool := s.slot0.st != .idle || s.slot1.st != .idle

/-- A one-bit response payload: bit 0 is the flag, bits 7–1 are 0 (30_encoding.md R113). -/
def flagByte (b : Bool) : Byte := if b then 1 else 0

/-- `BSSYNC <- 1` (43_slot_receiver.md R226). -/
def State.setBsSync (s : State) : State := { s with bsSync := true }

/-- `BSSYNC <- 0` (44_control.md R285). -/
def State.clearBsSync (s : State) : State := { s with bsSync := false }

/-- Type byte of a voice-sync frame (30_encoding.md R107). -/
def typeVoiceSync : Byte := 0x20

/-- Type byte of a data-sync frame: `0x40 | DT` (30_encoding.md R107). -/
def typeDataSync (dt : BitVec 4) : Byte := 0x40 ||| dt.setWidth 8

/-- Type byte of a predicted voice frame at superframe position 1–5 (30_encoding.md R107). -/
def typeVoicePosition (n : BitVec 3) : Byte := n.setWidth 8

/-- `LOSS_N` (43_slot_receiver.md, Notation; R243). -/
def lossN (P : Params) : Mode → Nat
  | .duplex => P.lossNDuplex
  | .single => P.lossNSingle

/-- Byte 2 of STATUS: `LOCKED<<7 | CURSLOT<<6 | BSSYNC<<5 | MISMATCH<<4 | ST1<<2 | ST0` (44_control.md R284). -/
def State.statusFlags (s : State) : Byte :=
  (flagByte s.locked <<< 7) ||| (s.curSlot.toBit.setWidth 8 <<< 6) ||| (flagByte s.bsSync <<< 5) |||
    (s.misMatch.setWidth 8 <<< 4) ||| (s.slot1.st.encoding.setWidth 8 <<< 2) ||| s.slot0.st.encoding.setWidth 8

/-- Bytes 3 and 4 of STATUS: `N << 5 | MISS` (R284). -/
def SlotRec.statusByte (r : SlotRec) : Byte := r.n ++ r.miss

/-- The 11 payload bytes of STATUS (30_encoding.md R113, 44_control.md R284). -/
def State.statusPayload (s : State) : List Byte :=
  [ (s.cfgMode.toBit.setWidth 8 <<< 7) ||| s.cfgCc.setWidth 8,
    s.cfgDelay,
    s.statusFlags,
    s.slot0.statusByte,
    s.slot1.statusByte,
    (s.ptr >>> 8).setWidth 8, s.ptr.setWidth 8,
    (s.slotTimer >>> 8).setWidth 8, s.slotTimer.setWidth 8,
    s.delayCnt,
    s.noSync.setWidth 8 ]

end Sys2Proof.Machine
end

