-- ==== Sys2Proof/Machine/Params.lean ====
section
/-! DEFINITION. The parameter values the core runs with: the defaults of 00_scope.md R8. -/

namespace Sys2Proof.Machine

open Sys2Proof.Config (Params SyncTemplate)

/-- The default classifier (43_slot_receiver.md R255, 30_encoding.md R108): colour code from burst bits 98–101, data type
from bits 102–105, no error correction. -/
def classifyDefault (burst : Burst) : BitVec 4 × BitVec 4 := (fieldMsb burst 98 4, fieldMsb burst 102 4)

/-- The default sync templates, indices 0–3 (30_encoding.md R104). -/
def syncTemplatesDefault : List SyncTemplate :=
  [ { role := .bs, cls := .voice, value := 0x755FD7DF75F7 },
    { role := .bs, cls := .data, value := 0xDFF57D75DF5D },
    { role := .ms, cls := .voice, value := 0x7F7D5DD57DFD },
    { role := .ms, cls := .data, value := 0xD5D7F77FD757 } ]

/-- The default parity-check equations `H15` (40_fec_bptc.md R135). -/
def h15Default : List (List Nat) :=
  [[0, 1, 2, 3, 5, 7, 8], [1, 2, 3, 4, 6, 8, 9], [2, 3, 4, 5, 7, 9, 10], [0, 1, 2, 4, 6, 7, 10]]

/-- The defaults of R8. DEDUCED, notes/assumptions/4.md: unsafe if a core is built with other values. -/
def params : Params where
  deintMult := 13
  passOrder := .rowsFirst
  maxPasses := 5
  extractMap := .doc
  h15 := h15Default
  rsPoly := 0x11D
  rsB := 0
  maskVH := [0x96, 0x96, 0x96]
  maskTLC := [0x99, 0x99, 0x99]
  syncTemplates := syncTemplatesDefault
  corrMaxDist := 3
  window := 2
  lossNDuplex := 13
  lossNSingle := 30
  unlockN := 60
  voiceLateEntry := false
  tactPos := [0, 4, 8, 12, 13, 17, 21]
  classify := classifyDefault

end Sys2Proof.Machine
end

