-- ==== Sys2Proof/Machine/Control.lean ====
section
/-! DEFINITION. The control commands NOP, RESET, CONFIG, STATUS, TXSYNC_POLL (44_control.md). -/

namespace Sys2Proof.Machine

/-- `NOP` (R280). -/
def execNop (s : State) : Host.Outcome State Fault Refusal := .next (s.respondOk [])

/-- `RESET` (R282): the configuration, the events and the responses are kept. -/
def execReset (s : State) : Host.Outcome State Fault Refusal := .next (s.receiveReset.respondOk [])

/-- The configuration registers CONFIG writes (R283); the reserved bits are not stored (30_encoding.md R114). -/
def State.configure (s : State) (mode : BitVec 1) (cc : BitVec 4) (delay : Byte) : State :=
  { s with cfgMode := Mode.ofBit mode, cfgCc := cc, cfgDelay := delay }

/-- `CONFIG` (R283): the receive reset loads `DELAYCNT` from the new delay. -/
def execConfig (mode : BitVec 1) (cc : BitVec 4) (delay : Byte) (s : State) : Host.Outcome State Fault Refusal :=
  .next ((s.configure mode cc delay).receiveReset.respondOk [])

/-- `STATUS` (R284): nothing is written, `BSSYNC` is not cleared. -/
def execStatus (s : State) : Host.Outcome State Fault Refusal := .next (s.respondOk s.statusPayload)

/-- `TXSYNC_POLL` (R285): `BSSYNC` as it was, then cleared. -/
def execTxsyncPoll (s : State) : Host.Outcome State Fault Refusal :=
  .next (s.clearBsSync.respondOk [flagByte s.bsSync])

end Sys2Proof.Machine
end

