-- ==== Sys2Proof/Machine/Operands.lean ====
section
/-! DEFINITION. The operand forms of the commands (30_encoding.md R111, R113) and the parts of a burst (R90, R92). -/

namespace Sys2Proof.Machine

/-- The coded block of BPTC_DECODE's operand: bits 0–195 of the 25 bytes; bits 196–199 are ignored (R113, R114). -/
def codedOperand (operand : List Byte) : Coded := bits 196 operand

/-- The 264 burst bits of LC_DECODE's operand (R113). -/
def burstOperand (operand : List Byte) : Burst := bits 264 operand

/-- The coded block of a burst: bits 0–97 and 166–263 (R92, 42_link_control.md R191). -/
def codedOfBurst (burst : Burst) : Coded :=
  ofBits 196 fun i => if i < 98 then burst.getLsbD i else burst.getLsbD (166 + (i - 98))

/-- The 33 payload bytes of a burst (R91). -/
def payloadOf (burst : Burst) : List Byte := bytesOf 33 burst

/-- Byte `i` of a byte-string operand. -/
def byteAt (operand : List Byte) (i : Nat) : Byte := operand.getD i 0

/-- The Link-Control record read from bytes 0–8 of a record (R100, R101). -/
def LcRecord.ofBytes (lc : List Byte) : LcRecord where
  pf := (byteAt lc 0).extractLsb' 7 1
  r := (byteAt lc 0).extractLsb' 6 1
  flco := (byteAt lc 0).extractLsb' 0 6
  fid := byteAt lc 1
  so := byteAt lc 2
  dst := byteAt lc 3 ++ byteAt lc 4 ++ byteAt lc 5
  src := byteAt lc 6 ++ byteAt lc 7 ++ byteAt lc 8

/-- The 9 bytes that carry a record in a response or event (R101). -/
def LcRecord.toBytes (record : LcRecord) : List Byte :=
  [(record.pf ++ record.r ++ record.flco : BitVec 8), record.fid, record.so,
    record.dst.extractLsb' 16 8, record.dst.extractLsb' 8 8, record.dst.extractLsb' 0 8,
    record.src.extractLsb' 16 8, record.src.extractLsb' 8 8, record.src.extractLsb' 0 8]

end Sys2Proof.Machine
end

