-- ==== Sys2Proof/Machine/Bptc.lean ====
section
/-! DEFINITION. The FEC block decoder BPTC(196,96) (40_fec_bptc.md) and BPTC_DECODE. -/

namespace Sys2Proof.Machine

open Sys2Proof.Config (Params)

/-- `cell(r, c)` (30_encoding.md R93). -/
def cell (r c : Nat) : Nat := 1 + 15 * r + c

/-- Deinterleave (R132): `W[k] <- C[(DEINT_MULT * k) mod 196]`. -/
def deinterleave (P : Params) (coded : Coded) : Work :=
  ofBits 196 fun k => coded.getLsbD (P.deintMult * k % 196)

/-! ### The Hamming(15,11,3) word decoder -/

/-- Bit `j` of the syndrome (R136): the parity bit `11 + j` XORed with the data positions of check `j` (R135). -/
def syndromeBit (P : Params) (w : BitVec 15) (j : Nat) : Bool :=
  (P.h15.getD j []).foldl (fun acc i => acc ^^ w.getLsbD i) (w.getLsbD (11 + j))

/-- `syn(w)` (R136). -/
def syndrome (P : Params) (w : BitVec 15) : BitVec 4 := ofBits 4 (syndromeBit P w)

/-- The syndrome → position table `H15_TABLE` (R136): the one position whose single flip produces the syndrome; `none` for
syndrome 0. It is derived from the equations, as a model with other equations must (93_implementation_defined.md B1). -/
def h15Position (P : Params) (syn : BitVec 4) : Option Nat :=
  if syn = 0 then none else (List.range 15).find? fun i => syndrome P (BitVec.twoPow 15 i) = syn

/-- `HCORR(w)` (R137): the corrected word and the position flipped. -/
def hcorr (P : Params) (w : BitVec 15) : BitVec 15 × Option Nat :=
  match h15Position P (syndrome P w) with
  | none => (w, none)
  | some pos => (flipBit w pos, some pos)

/-! ### Iterative correction -/

/-- The word of row `r` (R138): cells (r, 0) .. (r, 14). -/
def rowWord (W : Work) (r : Nat) : BitVec 15 := ofBits 15 fun c => W.getLsbD (cell r c)

/-- The word of column `c` (R139): two forced zeros, then cells (0, c) .. (12, c). -/
def colWord (W : Work) (c : Nat) : BitVec 15 :=
  ofBits 15 fun i => if i < 2 then false else W.getLsbD (cell (i - 2) c)

/-- The row step on row `r` (R138). `HCORR` changes only the bit it returns, so writing the corrected word back flips
exactly that cell. The second component is the pass's flip flag. -/
def rowCorrect (P : Params) (acc : Work × Bool) (r : Nat) : Work × Bool :=
  match (hcorr P (rowWord acc.1 r)).2 with
  | none => acc
  | some pos => (flipBit acc.1 (cell r pos), true)

/-- The column step on column `c` (R139). A syndrome that selects a virtual bit (position 0 or 1) writes nothing and
leaves the flip flag. -/
def colCorrect (P : Params) (acc : Work × Bool) (c : Nat) : Work × Bool :=
  match (hcorr P (colWord acc.1 c)).2 with
  | none => acc
  | some pos => if 2 ≤ pos then (flipBit acc.1 (cell (pos - 2) c), true) else acc

/-- Row step of a pass: rows 0–8 in order (R138). -/
def rowStep (P : Params) (acc : Work × Bool) : Work × Bool := (List.range 9).foldl (rowCorrect P) acc

/-- Column step of a pass: columns 0–14 in order (R139). -/
def colStep (P : Params) (acc : Work × Bool) : Work × Bool := (List.range 15).foldl (colCorrect P) acc

/-- One pass (R140): its result and whether it flipped a bit. -/
def pass (P : Params) (W : Work) : Work × Bool :=
  match P.passOrder with
  | .rowsFirst => colStep P (rowStep P (W, false))
  | .columnsFirst => rowStep P (colStep P (W, false))

/-- The pass loop (R140): until a pass makes no flip, at most the given number of passes. -/
def passLoop (P : Params) : Nat → Work → Work
  | 0, W => W
  | n + 1, W => if (pass P W).2 then passLoop P n (pass P W).1 else (pass P W).1

/-! ### Extraction -/

/-- The index into `W` of information bit `D[i]` (R145). -/
def infoIndex (P : Params) (i : Nat) : Nat :=
  match P.extractMap with
  | .doc => cell (i / 11) (i % 11)
  | .etsi => if i < 8 then cell 0 (3 + i) else cell (1 + (i - 8) / 11) ((i - 8) % 11)

/-- `D[0..95]` (R145). -/
def extract (P : Params) (W : Work) : BitVec 96 := ofBits 96 fun i => W.getLsbD (infoIndex P i)

/-- `BPTC(C) -> OUT`, 12 bytes (R131, R145). -/
def bptc (P : Params) (coded : Coded) : List Byte :=
  bytesOf 12 (extract P (passLoop P P.maxPasses (deinterleave P coded)))

end Sys2Proof.Machine
end

