-- ==== Sys2Proof/Machine/Parity.lean ====
section
/-! DEFINITION. The parity validator: a Reed–Solomon syndrome check over GF(2^8) (41_parity_rs.md). -/

namespace Sys2Proof.Machine

open Sys2Proof.Config (Params)

/-- Multiplication by α = x: shift left, XOR `RS_POLY` when bit 8 is set (R171, R172). -/
def timesAlpha (P : Params) (a : Byte) : Byte :=
  let doubled := a.setWidth 9 <<< 1
  if doubled.getLsbD 8 then (doubled ^^^ P.rsPoly).setWidth 8 else doubled.setWidth 8

/-- `n` successive entries of the exponent table from `a` on. -/
def expEntries (P : Params) : Nat → Byte → List Byte
  | 0, _ => []
  | n + 1, a => a :: expEntries P n (timesAlpha P a)

/-- `EXP[0..254]` (R172). -/
def expTable (P : Params) : List Byte := expEntries P 255 1

/-- `gexp(e) = EXP[e mod 255]` (R172). -/
def gexp (P : Params) (e : Nat) : Byte := (expTable P).getD (e % 255) 0

/-- `LOG[a]` for `a ≠ 0` (R172): the index of `a` in `EXP`. -/
def glog (P : Params) (a : Byte) : Nat := (expTable P).idxOf a

/-- `gmul(a, b)` (R172). `LOG[0]` is never read. -/
def gmul (P : Params) (a b : Byte) : Byte :=
  if a = 0 ∨ b = 0 then 0 else gexp P (glog P a + glog P b)

/-- The syndrome `S_j` (R174). -/
def rsSyndrome (P : Params) (codeword : List Byte) (j : Nat) : Byte :=
  (List.range 12).foldl
    (fun acc i => acc ^^^ gmul P (byteAt codeword i) (gexp P ((P.rsB + j) * (11 - i)))) 0

/-- `isValid(codeword)` (R170, R175): all three syndromes are zero. -/
def rsValid (P : Params) (codeword : List Byte) : Bool :=
  rsSyndrome P codeword 0 == 0 && rsSyndrome P codeword 1 == 0 && rsSyndrome P codeword 2 == 0

end Sys2Proof.Machine
end

