-- ==== Sys2Proof/Machine/LinkControl.lean ====
section
/-! DEFINITION. The Link-Control extractor (42_link_control.md). -/

namespace Sys2Proof.Machine

open Sys2Proof.Config (Params)

/-- `MASK_kind` (R193). -/
def lcMask (P : Params) : LcKind → List Byte
  | .vh => P.maskVH
  | .tlc => P.maskTLC

/-- Unmasking (R193): bytes 9–11 XORed with the mask of the kind, bytes 0–8 unchanged. -/
def unmask (P : Params) (kind : LcKind) (raw : List Byte) : List Byte :=
  raw.take 9 ++ (List.range 3).map fun i => byteAt raw (9 + i) ^^^ byteAt (lcMask P kind) i

/-- The 12 raw bytes after FEC and unmasking (R191–R193). -/
def lcRaw (P : Params) (burst : Burst) (kind : LcKind) : List Byte :=
  unmask P kind (bptc P (codedOfBurst burst))

/-- The plausibility test of R195: `FLCO in {0, 1}` and `DST != 0`. -/
def lcPlausible (record : LcRecord) : Bool := (record.flco == 0 || record.flco == 1) && record.dst != 0

/-- `HOW` (R195); `none` is REJECT. -/
def lcHow (P : Params) (raw : List Byte) : Option How :=
  if rsValid P raw then some .parity
  else if lcPlausible (LcRecord.ofBytes raw) then some .fallback
  else none

/-- `LCX(B, kind) -> (HOW, record)` (R190–R196); `none` is a rejection, which has no record. -/
def lcx (P : Params) (burst : Burst) (kind : LcKind) : Option (How × LcRecord) :=
  (lcHow P (lcRaw P burst kind)).map fun how => (how, LcRecord.ofBytes (lcRaw P burst kind))

/-- The byte `HOW` of an accepted record (30_encoding.md R113). -/
def How.toByte : How → Byte
  | .parity => 0x01
  | .fallback => 0x02

/-- The 10 payload bytes of LC_DECODE (R197): `HOW` and the record, or REJECT and nine zero bytes. -/
def lcPayload (result : Option (How × LcRecord)) : List Byte :=
  match result with
  | none => 0x00 :: List.replicate 9 0x00
  | some (how, record) => how.toByte :: record.toBytes

end Sys2Proof.Machine
end

