-- ==== Sys2Proof/Machine/Decoders.lean ====
section
/-! DEFINITION. The stateless decoding commands BPTC_DECODE, RS_CHECK, LC_DECODE. They read no state of the core and write
only their response (10_state.md R30, 20_memory.md R78). -/

namespace Sys2Proof.Machine

/-- `BPTC_DECODE` (40_fec_bptc.md R146). -/
def execBptcDecode (operand : List Byte) (s : State) : Host.Outcome State Fault Refusal :=
  .next (s.respondOk (bptc params (codedOperand operand)))

/-- `RS_CHECK` (41_parity_rs.md R175). -/
def execRsCheck (codeword : List Byte) (s : State) : Host.Outcome State Fault Refusal :=
  .next (s.respondOk [if rsValid params codeword then 0x01 else 0x00])

/-- `LC_DECODE` of kind VH (42_link_control.md R197). -/
def execLcDecodeVh (burst : List Byte) (s : State) : Host.Outcome State Fault Refusal :=
  .next (s.respondOk (lcPayload (lcx params (burstOperand burst) .vh)))

/-- `LC_DECODE` of kind TLC (42_link_control.md R197). -/
def execLcDecodeTlc (burst : List Byte) (s : State) : Host.Outcome State Fault Refusal :=
  .next (s.respondOk (lcPayload (lcx params (burstOperand burst) .tlc)))

end Sys2Proof.Machine
end

