-- ==== Sys2Proof/Machine/Completion.lean ====
section
/-! DEFINITION. Step 3 of the slot receiver: burst completion (43_slot_receiver.md R230–R245). In these definitions `k` is
the slot completing, `st0` the snapshot `ST0` of R232 and `burst` the assembled bits `D` of R231. -/

namespace Sys2Proof.Machine

open Sys2Proof.Config (Params BurstClass)

/-- Burst assembly (R231): the last 264 bits, complemented when the burst was framed by an inverted template. -/
def assemble (buf : Buf) (p : BitVec 10) (inv : Bool) : Burst :=
  ofBits 264 fun i => bufBit buf (p.toNat + 576 - 263 + i) ^^ inv

/-- The sub-type class of a data type (30_encoding.md R105). -/
def burstClass (dt : BitVec 4) : BurstClass :=
  match dt.toNat with
  | 0 => .piHeader
  | 1 => .vlcHeader
  | 2 => .tlc
  | 6 => .dataHeader
  | 7 => .rate12
  | 8 => .rate34
  | 10 => .rate1
  | _ => .shortControl

/-- The transition table of R237 on the slot record. -/
def subTypeWrites (dt : BitVec 4) (st0 : CallState) (r : SlotRec) : SlotRec :=
  match burstClass dt with
  | .vlcHeader => { r with st := .voice, n := 5 }
  | .piHeader => { r with st := .voice, n := 5 }
  | .tlc => { r with st := .idle }
  | .dataHeader => { r with st := .data, tag := some 6 }
  | .rate12 => if st0 = .data then { r with tag := some dt } else r
  | .rate34 => if st0 = .data then { r with tag := some dt } else r
  | .rate1 => if st0 = .data then { r with tag := some dt } else r
  | .shortControl => r

/-- The LC kind of R237, if the sub-type carries Link Control. -/
def lcKindOf (dt : BitVec 4) : Option LcKind :=
  match burstClass dt with
  | .vlcHeader => some .vh
  | .tlc => some .tlc
  | .piHeader => none
  | .dataHeader => none
  | .rate12 => none
  | .rate34 => none
  | .rate1 => none
  | .shortControl => none

/-- Link-Control extraction (R238): an `LC` event unless the record is rejected. -/
def surfaceLc (P : Params) (k : SlotId) (burst : Burst) (dt : BitVec 4) (s : State) : State :=
  match lcKindOf dt with
  | none => s
  | some kind =>
    match lcx P burst kind with
    | none => s
    | some (how, record) => s.emit (.lc k kind how record)

/-- An accepted data-sync burst (R236, R237, R238). -/
def acceptedBurst (P : Params) (k : SlotId) (st0 : CallState) (burst : Burst) (dt : BitVec 4) (s : State) : State :=
  surfaceLc P k burst dt
    ((s.emit (.burst k (typeDataSync dt) (payloadOf burst))).modifySlot k fun r =>
      subTypeWrites dt st0 { r with miss := 0 })

/-- `MISS <- MISS + 1` if `ST0 != IDLE` (R235, R241). -/
def countMiss (k : SlotId) (st0 : CallState) (s : State) : State :=
  if st0 = .idle then s else s.modifySlot k fun r => { r with miss := r.miss + 1 }

/-- A data-sync burst (R234, R235, R236): classified, discarded on a colour-code mismatch in duplex mode. -/
def dataSyncBurst (P : Params) (k : SlotId) (st0 : CallState) (burst : Burst) (s : State) : State :=
  if s.cfgMode = .duplex ∧ (P.classify burst).1 ≠ s.cfgCc then countMiss k st0 s
  else acceptedBurst P k st0 burst (P.classify burst).2 s

/-- A voice-sync burst (R233). -/
def voiceSyncBurst (P : Params) (k : SlotId) (st0 : CallState) (burst : Burst) (s : State) : State :=
  (s.emit (.burst k typeVoiceSync (payloadOf burst))).modifySlot k fun r =>
    { r with
      n := 0
      miss := 0
      st := if P.voiceLateEntry ∧ st0 ≠ .voice then .voice else r.st }

/-- A predicted voice frame (R240): nothing unless `ST0 = VOICE`. -/
def predictedFrame (k : SlotId) (st0 : CallState) (burst : Burst) (s : State) : State :=
  if st0 = .voice then
    if 5 ≤ (s.slot k).n.toNat then
      (s.emit (.burst k typeVoiceSync (payloadOf burst))).modifySlot k fun r => { r with n := 0 }
    else
      (s.emit (.burst k (typeVoicePosition ((s.slot k).n + 1)) (payloadOf burst))).modifySlot k fun r =>
        { r with n := r.n + 1 }
  else s

/-- Sync loss (R243) with the reset scope of R244. -/
def syncLoss (P : Params) (k : SlotId) (s : State) : State :=
  if (s.slot k).st ≠ .idle ∧ lossN P s.cfgMode ≤ (s.slot k).miss.toNat then
    match s.cfgMode with
    | .duplex => ((s.emit (.lost k)).resetSlot k).clearBits
    | .single => (s.emit (.lost k)).resetSlot k
  else s

/-- Idle disarm (R245). -/
def idleDisarm (k : SlotId) (s : State) : State :=
  if (s.slot k).st = .idle then
    s.modifySlot k fun r => { r with endPos := none, expSync := none, miss := 0 }
  else s

/-- The part of `COMPLETE` between the snapshot and rule R243 (R232): by whether the burst was framed by a match in this
period, and by the class of that match. -/
def frameBurst (P : Params) (k : SlotId) (before : SlotRec) (burst : Burst) (s : State) : State :=
  if before.seen then
    match before.kind with
    | .voice => voiceSyncBurst P k before.st burst s
    | .data => dataSyncBurst P k before.st burst s
  else countMiss k before.st (predictedFrame k before.st burst s)

/-- `COMPLETE(k)` (R231–R245). -/
def complete (P : Params) (k : SlotId) (s : State) : State :=
  idleDisarm k (syncLoss P k
    (frameBurst P k (s.slot k) (assemble s.buf s.ptr (s.slot k).inv)
      (s.modifySlot k fun r => { r with seen := false })))

/-- Step 3 for one slot (R230): complete it if this bit is its period end. -/
def completeIfDue (P : Params) (k : SlotId) (s : State) : State :=
  if (s.slot k).endPos = some s.ptr then complete P k s else s

end Sys2Proof.Machine
end

