-- ==== Sys2Proof/Machine/Correlator.lean ====
section
/-! DEFINITION. Step 2 of the slot receiver: the sync correlator, slot attribution, the CACH slot indicator, lock and
re-alignment (43_slot_receiver.md R215–R226, R250–R253, R260, R261). Throughout, `p` of the rules is `s.ptr`: no step
before step 5 writes `PTR`. -/

namespace Sys2Proof.Machine

open Sys2Proof.Config (Params SyncTemplate SyncMatch)

/-! ### Templates and distance -/

/-- The enabled templates in table order with what a match of each reports (R222, 30_encoding.md R104): indices 0–3 in
both modes, their complements marked inverted in single-radio mode. -/
def enabledTemplates (P : Params) (mode : Mode) : List (BitVec 48 × SyncMatch) :=
  let plain := P.syncTemplates.map fun t => (t.value, { role := t.role, cls := t.cls, inverted := false })
  match mode with
  | .duplex => plain
  | .single =>
    plain ++ P.syncTemplates.map fun t => (~~~ t.value, { role := t.role, cls := t.cls, inverted := true })

/-- `dist(w, T)` (R221). -/
def hammingDistance (w t : BitVec 48) : Nat := popcount (w ^^^ t)

/-- `CORR(w)` (R218): the first enabled template within `CORR_MAXDIST`. -/
def corr (P : Params) (mode : Mode) (w : BitVec 48) : Option SyncMatch :=
  ((enabledTemplates P mode).find? fun t => decide (hammingDistance w t.1 ≤ P.corrMaxDist)).map Prod.snd

/-! ### Window, home slot, gate -/

/-- Slot `k` is in window (R216). -/
def inWindow (P : Params) (s : State) (k : SlotId) : Bool :=
  (s.slot k).st != .idle &&
    match (s.slot k).expSync with
    | none => false
    | some e => decide (cdist s.ptr e ≤ P.window)

/-- `WSLOT` (R216): the lowest-numbered slot in window. -/
def windowSlot (P : Params) (s : State) : Option SlotId :=
  if inWindow P s .zero then some .zero else if inWindow P s .one then some .one else none

/-- The cursor half (R217): slot 0 for positions 0–287, slot 1 for 288–575. -/
def halfSlot (p : BitVec 10) : SlotId := if p.toNat < 288 then .zero else .one

/-- `HOME` (R217). -/
def homeSlot (s : State) : Option SlotId :=
  match s.cfgMode with
  | .duplex => some (halfSlot s.ptr)
  | .single => if s.locked then some s.curSlot else none

/-- The correlation gate (R215). -/
def gateOpen (P : Params) (s : State) : Bool :=
  (windowSlot P s).isSome ||
    match homeSlot s with
    | none => true
    | some home => (s.slot home).st == .idle

/-! ### CACH slot indicator -/

/-- The TACT word `T[0..6]` of the CACH field at buffer position `q` (R252). -/
def tactWord (P : Params) (buf : Buf) (q : Nat) : BitVec 7 :=
  ofBits 7 fun j => bufBit buf (q + P.tactPos.getD j 0)

/-- The Hamming(7,4) syndrome (R251). -/
def tactSyndrome (t : BitVec 7) : BitVec 3 :=
  ofBits 3 fun
    | 0 => t.getLsbD 4 ^^ t.getLsbD 0 ^^ t.getLsbD 1 ^^ t.getLsbD 2
    | 1 => t.getLsbD 5 ^^ t.getLsbD 1 ^^ t.getLsbD 2 ^^ t.getLsbD 3
    | _ => t.getLsbD 6 ^^ t.getLsbD 0 ^^ t.getLsbD 1 ^^ t.getLsbD 3

/-- `pos(s)` of R251; `none` for syndrome 0. -/
def tactPosition (syn : BitVec 3) : Option Nat :=
  match syn.toNat with
  | 1 => some 4
  | 2 => some 5
  | 3 => some 2
  | 4 => some 6
  | 5 => some 0
  | 6 => some 3
  | 7 => some 1
  | _ => none

/-- The corrected TACT word (R251). -/
def tactCorrect (t : BitVec 7) : BitVec 7 :=
  match tactPosition (tactSyndrome t) with
  | none => t
  | some pos => flipBit t pos

/-- `TACTSLOT(q)` (R250, R253): the corrected TC bit, as the slot it indicates. -/
def tactSlot (P : Params) (buf : Buf) (q : Nat) : SlotId :=
  SlotId.ofBit ((tactCorrect (tactWord P buf q)).getLsbD 1)

/-! ### Accepting a match -/

/-- Lock (R260): the slot from the CACH of the current slot period, the phase from the match. -/
def lock (P : Params) (s : State) : State :=
  { s with
    locked := true
    curSlot := tactSlot P s.buf (backFrom s.ptr 179)
    slotTimer := 179
    misMatch := 0
    noSync := 0 }

/-- Re-alignment (R261) to slot `k`. -/
def realign (k : SlotId) (s : State) : State := { s with curSlot := k, slotTimer := 179 }

/-- The attributed slot `K` of an accepted match (R217). -/
def attributedSlot (P : Params) (s : State) : SlotId :=
  match s.cfgMode with
  | .duplex => (windowSlot P s).getD (halfSlot s.ptr)
  | .single =>
    if s.locked then (windowSlot P s).getD s.curSlot else tactSlot P s.buf (backFrom s.ptr 179)

/-- Step (1) of `ACCEPT` (R223): lock or re-alignment in single-radio mode. -/
def lockOrRealign (P : Params) (s : State) : State :=
  match s.cfgMode with
  | .duplex => s
  | .single => if s.locked then realign (attributedSlot P s) s else lock P s

/-- The match writes (R225). -/
def matchWrites (k : SlotId) (m : SyncMatch) (s : State) : State :=
  { s.modifySlot k fun r =>
      { r with
        endPos := some (position (s.ptr.toNat + 108))
        expSync := some s.ptr
        seen := true
        kind := m.cls
        inv := m.inverted } with
    syncP := true }

/-- The transmit-sync report (R226). -/
def transmitReport (m : SyncMatch) (s : State) : State :=
  if s.cfgMode = .duplex ∧ m.role = .bs then s.setBsSync else s

/-- `ACCEPT(m)` (R223). The attributed slot depends on the state before lock or re-alignment. -/
def accept (P : Params) (m : SyncMatch) (s : State) : State :=
  transmitReport m (matchWrites (attributedSlot P s) m (lockOrRealign P s))

/-- The match step 2 finds (R215, R218): `CORR(PAT[47:0])` when the gate is open. -/
def syncFound (P : Params) (s : State) : Option SyncMatch :=
  if gateOpen P s then corr P s.cfgMode (s.pat.setWidth 48) else none

/-- Step 2 (R215, R220, R223). -/
def syncStep (P : Params) (s : State) : State :=
  match syncFound P s with
  | none => s
  | some m => accept P m s

end Sys2Proof.Machine
end

