-- ==== Sys2Proof/Machine/Flywheel.lean ====
section
/-! DEFINITION. Step 4 of the slot receiver: the single-radio flywheel (43_slot_receiver.md R262–R267). -/

namespace Sys2Proof.Machine

open Sys2Proof.Config (Params)

/-- Phase check (R263): the CACH at the start of the slot period now ending against `CURSLOT`. -/
def phaseCheck (P : Params) (s : State) : State :=
  if tactSlot P s.buf (backFrom s.ptr 287) = s.curSlot then { s with misMatch := 0 }
  else { s with misMatch := s.misMatch + 1 }

/-- Phase correction (R264): after two disagreements the records are exchanged whole. -/
def phaseCorrect (s : State) : State :=
  if 2 ≤ s.misMatch.toNat then
    { s with slot0 := s.slot1, slot1 := s.slot0, curSlot := s.curSlot.other, misMatch := 0 }
  else s

/-- No-sync count (R265), saturating at 127. -/
def countNoSync (s : State) : State :=
  { s with
    noSync := if s.syncP then 0 else if s.noSync = 127 then 127 else s.noSync + 1
    syncP := false }

/-- The condition of unlock (R266). -/
def unlockDue (P : Params) (s : State) : Bool :=
  decide (P.unlockN ≤ s.noSync.toNat) && s.slot0.st == .idle && s.slot1.st == .idle

/-- Unlock (R266). -/
def unlock (s : State) : State :=
  { ((s.clearBits.resetSlot .zero).resetSlot .one) with
    locked := false
    curSlot := .zero
    slotTimer := 0
    misMatch := 0
    noSync := 0
    syncP := false }

/-- Wrap (R266, R267): the next slot period belongs to the other slot. -/
def wrap (s : State) : State := { s with slotTimer := 0, curSlot := s.curSlot.other }

/-- Unlock or wrap (R266). -/
def unlockOrWrap (P : Params) (s : State) : State := if unlockDue P s then unlock s else wrap s

/-- The end of a slot period: rules R263–R266 in order (R262). -/
def periodEnd (P : Params) (s : State) : State := unlockOrWrap P (countNoSync (phaseCorrect (phaseCheck P s)))

/-- `FLYWHEEL()` (R262), with the condition of step 4 (R211). -/
def flywheel (P : Params) (s : State) : State :=
  if s.cfgMode = .single ∧ s.locked = true then
    if s.slotTimer = 287 then periodEnd P s else { s with slotTimer := s.slotTimer + 1 }
  else s

end Sys2Proof.Machine
end

