-- ==== Sys2Proof/Machine/Receiver.lean ====
section
/-! DEFINITION. The BIT command (43_slot_receiver.md R210–R214, R219, R227, R270). -/

namespace Sys2Proof.Machine

open Sys2Proof.Config (Params)

/-- Step 1 (R213, R214): the bit into `BUF[p]` and into the least significant end of `PAT`. For a cursor of 576 or more,
which R37 rules out and no run reaches, there is no `BUF[p]`: the bit goes into `PAT` only and `BUF` keeps its value.
DESIGN CHOICE, notes/assumptions/6.md: unsafe for a claim about every state without the invariant. -/
def storeBit (b : Bool) (s : State) : State :=
  { s with
    buf := writeBit s.buf s.ptr.toNat b
    pat := (s.pat <<< 1) ||| (BitVec.ofBool b).setWidth 64 }

/-- Step 5 (R219): `PTR <- (p + 1) mod 576`. -/
def advancePtr (s : State) : State := { s with ptr := position (s.ptr.toNat + 1) }

/-- Steps 1 to 5 on an accepted bit, in the order of R211 and R227. -/
def acceptBit (P : Params) (b : Bool) (s : State) : State :=
  advancePtr (flywheel P (completeIfDue P .one (completeIfDue P .zero (syncStep P (storeBit b s)))))

/-- Step 0 (R212): a discarded bit. -/
def discardBit (s : State) : State := { s with delayCnt := s.delayCnt - 1 }

/-- The state change of `BIT b` (R211). -/
def receiveBit (P : Params) (b : Bool) (s : State) : State :=
  if s.delayCnt = 0 then acceptBit P b s else discardBit s

/-- The response of BIT (R270): `ACTIVE` after the state change. -/
def respondActive (s : State) : State := s.respondOk [flagByte s.active]

/-- `BIT 0` (opcode 0x10, R211). -/
def execBit0 (s : State) : Host.Outcome State Fault Refusal := .next (respondActive (receiveBit params false s))

/-- `BIT 1` (opcode 0x11, R211). -/
def execBit1 (s : State) : Host.Outcome State Fault Refusal := .next (respondActive (receiveBit params true s))

end Sys2Proof.Machine
end

