-- ==== Sys2Proof/Machine/Dispatch.lean ====
section
/-! DEFINITION. One arm per command: the meaning of each. -/

namespace Sys2Proof.Machine

def exec (i : Instr) (s : State) : Host.Outcome State Fault Refusal :=
  match i with
  | .nop => Sys2Proof.Machine.execNop s
  | .reset => Sys2Proof.Machine.execReset s
  | .config mode _ cc delay => Sys2Proof.Machine.execConfig mode cc delay s
  | .status => Sys2Proof.Machine.execStatus s
  | .txsyncPoll => Sys2Proof.Machine.execTxsyncPoll s
  | .bit0 => Sys2Proof.Machine.execBit0 s
  | .bit1 => Sys2Proof.Machine.execBit1 s
  | .bptcDecode operand => Sys2Proof.Machine.execBptcDecode operand s
  | .rsCheck codeword => Sys2Proof.Machine.execRsCheck codeword s
  | .lcDecodeVh burst => Sys2Proof.Machine.execLcDecodeVh burst s
  | .lcDecodeTlc burst => Sys2Proof.Machine.execLcDecodeTlc burst s

end Sys2Proof.Machine
end

