-- ==== Sys2Proof/Machine/Step.lean ====
section
/-! DEFINITION. One step of the core: it performs the next complete command of its stream (44_control.md R281). -/

namespace Sys2Proof.Machine

/-- One step. A complete command is taken from the stream and performed; an illegal opcode byte is taken alone and gets
its defined response (30_encoding.md R115, 60_exceptions.md R303); with no complete command the core waits and keeps all
its state (60_exceptions.md R304, R313; DEDUCED, notes/assumptions/1.md: safe). -/
def step (s : State) : Host.Outcome State Fault Refusal :=
  match s.nextCommand with
  | .command i rest => exec i (s.withInput rest)
  | .illegalOpcode _ rest => .next (s.withInput rest).respondIllegal
  | .incomplete => .next s

/-- `s` with the command `w` at the front of its command stream, so that the next step performs exactly it. -/
def State.withFetchWord (s : State) (nbits w : Nat) : State := s.placeCommand nbits w

end Sys2Proof.Machine
end

