-- ==== Sys2Proof/Machine/Run.lean ====
section
/-! DEFINITION. Runs of the core: launch premises, the commands of a byte stream, a run and its observation
(70_reset_and_hazards.md R324, R333). -/

namespace Sys2Proof.Machine

/-- The launch premise *AfterReset(cfg)* (R324): the state of 10_state.md R60 with a configuration and the events already
appended. *PowerUp* is `State.reset`. -/
def State.afterReset (mode : Mode) (cc : BitVec 4) (delay : BitVec 8) (events : List Event) : State :=
  State.receiveReset { State.reset with cfgMode := mode, cfgCc := cc, cfgDelay := delay, events := events }

/-- The complete commands at the front of a byte stream, oldest first, at most `n` of them. An illegal opcode is a command of
its one byte (60_exceptions.md R303). A command whose operand bytes have not all arrived is none, and ends them (R304). -/
def completeCommands : Nat → List Byte → List Decoded
  | 0, _ => []
  | n + 1, bytes =>
    match decode bytes with
    | .command i rest => .command i rest :: completeCommands n rest
    | .illegalOpcode opcode rest => .illegalOpcode opcode rest :: completeCommands n rest
    | .incomplete => []

/-- At most `n` steps, one for each complete command of the stream, until the first fault or refusal. -/
def runSteps : Nat → State → Host.Outcome State Fault Refusal
  | 0, s => .next s
  | n + 1, s =>
    match step s with
    | .next t => runSteps n t
    | .fault f => .fault f
    | .refused r => .refused r

/-- The state after the host has delivered more command bytes. -/
def State.deliver (s : State) (bytes : List Byte) : State := s.withInput (s.input ++ bytes)

/-- A run (R333): the host delivers `bytes` and the core performs every complete command of them, legal or not, in order. As a
command takes at least its opcode byte, as many steps as there are bytes suffice; the steps left over wait. The bytes of an
incomplete command at the end stay in the stream, not performed (R304; notes/assumptions/1.md: safe). -/
def run (bytes : List Byte) (s : State) : Host.Outcome State Fault Refusal :=
  runSteps (s.deliver bytes).input.length (s.deliver bytes)

/-- What a run shows (R333). -/
structure Observation where
  /-- The responses of the run, one per command. -/
  responses : List Response
  /-- The events appended during the run, in order. -/
  events : List Event
  /-- The state after the last command. -/
  final : State
deriving DecidableEq, Repr

/-- The observation of a run from `s` that ends in `t`: both lists only grow, so what the run added is what stands after the
entries of `s`. -/
def observe (s t : State) : Observation where
  responses := t.responses.drop s.responses.length
  events := t.events.drop s.events.length
  final := t

end Sys2Proof.Machine
end

