-- ==== Sys2Proof/Safety.lean ====
section
/-! DEFINITION. The terms claims about the core are stated in: the invariant of the state between commands, runs of bits,
the encoder-side notions of the FEC block code, and field arithmetic without tables. -/

namespace Sys2Proof.Machine

open Sys2Proof.Config (SyncMatch)

/-! ### The invariant between commands -/

/-- A slot record between commands, for a loss threshold `bound`: `N` is 0–5 (10_state.md R49), `MISS` has not reached the
threshold (R48, 43_slot_receiver.md R243), an IDLE slot counts no misses (R48, R245), and the two positions are written
and cleared together (R51, R225, R245): they are set exactly while the slot is in a call or has seen a match. -/
structure SlotRec.Inv (bound : Nat) (r : SlotRec) : Prop where
  n_le : r.n.toNat ≤ 5
  miss_lt : r.miss.toNat < bound
  idle_miss : r.st = .idle → r.miss = 0
  armed : (r.st ≠ .idle ∨ r.seen = true) →
    ∃ e : BitVec 10, e.toNat < 576 ∧ r.expSync = some e ∧ r.endPos = some (position (e.toNat + 108))
  disarmed : r.st = .idle → r.seen = false → r.expSync = none ∧ r.endPos = none

/-- The state between commands. Every clause is a bound or a "never" of 10_state.md (R37, R39–R45, R47–R52, R54). -/
structure State.Inv (s : State) : Prop where
  /-- R37: the cursor is 0–575. -/
  ptr_lt : s.ptr.toNat < 576
  /-- R42: the intra-slot timer is 0–287. -/
  slotTimer_lt : s.slotTimer.toNat < 288
  /-- R43: the phase-mismatch counter is 0 or 1 at rest. -/
  misMatch_le : s.misMatch.toNat ≤ 1
  /-- R39: no more bits are to be discarded than the delay. -/
  delayCnt_le : s.delayCnt.toNat ≤ s.cfgDelay.toNat
  slot0_inv : s.slot0.Inv (lossN params s.cfgMode)
  slot1_inv : s.slot1.Inv (lossN params s.cfgMode)
  /-- R40–R44, R222: in duplex mode the flywheel is never written and no inverted template matches. -/
  duplex_idle : s.cfgMode = .duplex →
    s.locked = false ∧ s.curSlot = .zero ∧ s.slotTimer = 0 ∧ s.misMatch = 0 ∧ s.noSync = 0 ∧
      s.slot0.inv = false ∧ s.slot1.inv = false
  /-- R54: the transmit-sync level is never set in single-radio mode. -/
  single_bsSync : s.cfgMode = .single → s.bsSync = false
  /-- R260, R266: an unlocked single-radio receiver tracks no call and holds no flywheel phase. -/
  unlocked_clear : s.cfgMode = .single → s.locked = false →
    s.curSlot = .zero ∧ s.slotTimer = 0 ∧ s.misMatch = 0 ∧ s.noSync = 0 ∧ s.syncP = false ∧
      s.slot0 = SlotRec.reset ∧ s.slot1 = SlotRec.reset
  /-- R39, R212: while bits are still to be discarded, nothing has been received since the reset. -/
  delaying_clear : s.delayCnt ≠ 0 →
    s.buf = 0 ∧ s.ptr = 0 ∧ s.pat = 0 ∧ s.locked = false ∧ s.syncP = false ∧ s.bsSync = false ∧
      s.slot0 = SlotRec.reset ∧ s.slot1 = SlotRec.reset

/-! ### Commands and their responses -/

/-- The response OK with this payload (30_encoding.md R112). -/
def okResponse (payload : List Byte) : Response := { status := 0x00, payload := payload }

/-- The BIT command carrying bit `b`. -/
def bitCommand : Bool → Instr
  | false => .bit0
  | true => .bit1

/-- The LC_DECODE command of a kind. -/
def lcCommand : LcKind → List Byte → Instr
  | .vh, burst => .lcDecodeVh burst
  | .tlc, burst => .lcDecodeTlc burst

/-- Bit `i` of a byte string (00_scope.md R10). -/
def stringBit (bytes : List Byte) (i : Nat) : Bool := (bytes.getD (i / 8) 0).getLsbD (7 - i % 8)

/-- The state after step 1 of an accepted BIT (43_slot_receiver.md R213, R214), written out: every buffer bit but `BUF[p]`
keeps its value. -/
def Stored (b : Bool) (s t : State) : Prop :=
  (∀ i < 576, t.buf.getLsbD i = if i = s.ptr.toNat then b else s.buf.getLsbD i) ∧
    t.pat = (s.pat <<< 1) ||| (if b then 1 else 0)

/-- A slot in window at position `p` (43_slot_receiver.md R216), written out: it is in a call and `p` is at most two
positions before or after its `EXPSYNC`, modulo 576. -/
abbrev InWindow (p : BitVec 10) (r : SlotRec) : Prop :=
  r.st ≠ .idle ∧
    ∃ e ∈ r.expSync, ((p.toNat : Int) - e.toNat) % 576 ≤ 2 ∨ ((e.toNat : Int) - p.toNat) % 576 ≤ 2

/-- A slot record after the writes of a match at position `p` (43_slot_receiver.md R225), written out. -/
def SlotRec.framedAt (r : SlotRec) (p : BitVec 10) (m : SyncMatch) : SlotRec :=
  { r with
    endPos := some (BitVec.ofNat 10 ((p.toNat + 108) % 576))
    expSync := some p
    seen := true
    kind := m.cls
    inv := m.inverted }

/-! ### Runs and events -/

/-- The slot an event is tagged with (10_state.md R55). -/
def Event.slot : Event → SlotId
  | .burst k _ _ => k
  | .lc k _ _ _ => k
  | .lost k => k

/-- The events of one completion of slot `k`, in the order of 43_slot_receiver.md R227: at most a `BURST`, then at most an
`LC` that follows it, then at most a `LOST`. -/
def CompletionEvents (k : SlotId) (es : List Event) : Prop :=
  ∃ bursts lcs losts, es = bursts ++ lcs ++ losts ∧
    (bursts = [] ∨ ∃ ty payload, bursts = [Event.burst k ty payload]) ∧
    (lcs = [] ∨ bursts ≠ [] ∧ ∃ kind how record, lcs = [Event.lc k kind how record]) ∧
    (losts = [] ∨ losts = [Event.lost k])

/-- How many `LOST` events a stream holds. -/
def lostCount (es : List Event) : Nat := (es.filter fun e => match e with | .lost _ => true | _ => false).length

/-- The bits of a list given to the receiver one after another. -/
def receiveBits : List Bool → State → State
  | [], s => s
  | b :: bs, s => receiveBits bs (receiveBit params b s)

/-- No bit of the list completes a sync match when it is given to the receiver after the ones before it (R215, R220). -/
def NoSyncRun : List Bool → State → Prop
  | [], _ => True
  | b :: bs, s => syncFound params (storeBit b s) = none ∧ NoSyncRun bs (receiveBit params b s)

/-! ### The sync table, written out -/

/-- The enabled templates and what a match of each reports (30_encoding.md R104, 43_slot_receiver.md R222). -/
def syncTable : Mode → List (BitVec 48 × SyncMatch)
  | .duplex =>
    [ (0x755FD7DF75F7, { role := .bs, cls := .voice, inverted := false }),
      (0xDFF57D75DF5D, { role := .bs, cls := .data, inverted := false }),
      (0x7F7D5DD57DFD, { role := .ms, cls := .voice, inverted := false }),
      (0xD5D7F77FD757, { role := .ms, cls := .data, inverted := false }) ]
  | .single =>
    [ (0x755FD7DF75F7, { role := .bs, cls := .voice, inverted := false }),
      (0xDFF57D75DF5D, { role := .bs, cls := .data, inverted := false }),
      (0x7F7D5DD57DFD, { role := .ms, cls := .voice, inverted := false }),
      (0xD5D7F77FD757, { role := .ms, cls := .data, inverted := false }),
      (0x8AA028208A08, { role := .bs, cls := .voice, inverted := true }),
      (0x200A828A20A2, { role := .bs, cls := .data, inverted := true }),
      (0x8082A22A8202, { role := .ms, cls := .voice, inverted := true }),
      (0x2A28088028A8, { role := .ms, cls := .data, inverted := true }) ]

/-! ### The block code of the FEC decoder -/

/-- Bit `j` of a 15-bit word's four checks, written out (40_fec_bptc.md R135). -/
def checkBits (w : BitVec 15) : List Bool :=
  [ w.getLsbD 11 ^^ w.getLsbD 0 ^^ w.getLsbD 1 ^^ w.getLsbD 2 ^^ w.getLsbD 3 ^^ w.getLsbD 5 ^^ w.getLsbD 7 ^^ w.getLsbD 8,
    w.getLsbD 12 ^^ w.getLsbD 1 ^^ w.getLsbD 2 ^^ w.getLsbD 3 ^^ w.getLsbD 4 ^^ w.getLsbD 6 ^^ w.getLsbD 8 ^^ w.getLsbD 9,
    w.getLsbD 13 ^^ w.getLsbD 2 ^^ w.getLsbD 3 ^^ w.getLsbD 4 ^^ w.getLsbD 5 ^^ w.getLsbD 7 ^^ w.getLsbD 9 ^^ w.getLsbD 10,
    w.getLsbD 14 ^^ w.getLsbD 0 ^^ w.getLsbD 1 ^^ w.getLsbD 2 ^^ w.getLsbD 4 ^^ w.getLsbD 6 ^^ w.getLsbD 7 ^^ w.getLsbD 10 ]

/-- A 15-bit word is a codeword: every check is zero (R135). -/
abbrev IsCodeword (w : BitVec 15) : Prop := checkBits w = [false, false, false, false]

/-- A matrix whose data rows and columns are all codewords (R147). -/
abbrev IsBlock (W : Work) : Prop :=
  (∀ r < 9, IsCodeword (rowWord W r)) ∧ (∀ c < 15, IsCodeword (colWord W c))

/-- An error pattern with at most one error in every data row and in every column (R147). -/
abbrev OneErrorPerUnit (e : Work) : Prop :=
  (∀ r < 9, ∀ c < 15, ∀ c' < 15, e.getLsbD (cell r c) = true → e.getLsbD (cell r c') = true → c = c') ∧
  (∀ c < 15, ∀ r < 13, ∀ r' < 13, e.getLsbD (cell r c) = true → e.getLsbD (cell r' c) = true → r = r')

/-- A pass of the block decoder (40_fec_bptc.md R140), written out: rows 0–8, then columns 0–14, from a clear flip flag. -/
def rowsThenColumns (W : Work) : Work × Bool :=
  (List.range 15).foldl (colCorrect params) ((List.range 9).foldl (rowCorrect params) (W, false))

/-- The 12 output bytes of a matrix (40_fec_bptc.md R145), written out: information bit `8 i + (7 - j)` is bit `j` of byte
`i`. -/
def informationBytes (W : Work) : List Byte :=
  (List.range 12).map fun i =>
    ofBits 8 fun j => W.getLsbD (1 + 15 * ((8 * i + (7 - j)) / 11) + (8 * i + (7 - j)) % 11)

/-! ### Field arithmetic without tables -/

/-- Doubling in GF(2^8) modulo `x^8 + x^4 + x^3 + x^2 + 1` (41_parity_rs.md R171), on bytes. -/
def fieldDouble (a : Byte) : Byte := if a.getLsbD 7 then (a <<< 1) ^^^ 0x1D else a <<< 1

/-- `a` doubled `k` times. -/
def fieldShift (a : Byte) : Nat → Byte
  | 0 => a
  | k + 1 => fieldDouble (fieldShift a k)

/-- The product of two bytes in GF(2^8) by shift and add: the sum of `a · x^k` over the bits `k` of `b` (R171). -/
def fieldMul (a b : Byte) : Byte :=
  (List.range 8).foldl (fun acc k => if b.getLsbD k then acc ^^^ fieldShift a k else acc) 0

/-- The value at `point` of the polynomial whose coefficients, highest degree first, are the bytes of `codeword`: Horner's
scheme (R174). -/
def fieldEval (point : Byte) (codeword : List Byte) : Byte :=
  codeword.foldl (fun acc c => fieldMul acc point ^^^ c) 0

/-- `α^j`. -/
def alphaPower (j : Nat) : Byte := fieldShift 1 j

end Sys2Proof.Machine
end

