-- ==== Sys2Proof/Certificates/Slice0/Obligations.lean ====
section
/-! DEFINITION. The statements for the provers. Each docstring names the rule of spec/ it formalises. -/

open Sys2Proof Sys2Proof.Machine Sys2Proof.Config

/-! ### The command stream -/

/-- A step performs exactly the command the decoder reads at the front of the stream (R281): whatever the bytes decode
to is well formed, and the step is its meaning on the state with its bytes taken.
The stream and the waiting step are the model's (log entry 1). -/
def Obligations.StepRunsDecodedCommand : Prop :=
  ∀ (s : State) (i : Instr) (rest : List Byte), decode s.input = .command i rest →
    i.wellFormed = true ∧ step s = exec i { s with input := rest }

/-- R304: a command whose operand bytes have not all arrived changes nothing and produces no response.
The stream and the waiting step are the model's (log entry 1). -/
def Obligations.IncompleteCommandIsNotPerformed : Prop :=
  ∀ (s : State) (i : Instr) (missing : List Byte), i.wellFormed = true → missing ≠ [] →
    encode i = s.input ++ missing → step s = .next s

/-- R303, R286: an illegal opcode is consumed alone, changes no state, appends no event, responds 0xFF with no payload,
and the next byte is the next opcode. -/
def Obligations.IllegalOpcodeRespondsOnly : Prop :=
  ∀ (s : State) (opcode : Byte) (rest : List Byte),
    (0x05 ≤ opcode.toNat ∧ opcode.toNat ≤ 0x0F ∨ 0x12 ≤ opcode.toNat ∧ opcode.toNat ≤ 0x1F ∨ 0x24 ≤ opcode.toNat) →
    s.input = opcode :: rest →
    step s = .next { s with input := rest, responses := s.responses ++ [{ status := 0xFF, payload := [] }] }

/-- R116: the opcode alone fixes the number of operand bytes; an opcode outside the table takes none. -/
def Obligations.OpcodeFixesOperandLength : Prop :=
  ∀ (opcode : Byte) (bytes : List Byte),
    (∀ i rest, decode (opcode :: bytes) = .command i rest →
      ∃ n operands, bytes = operands ++ rest ∧ operands.length = n ∧
        (opcode.toNat, n) ∈ [(0x00, 0), (0x01, 0), (0x02, 2), (0x03, 0), (0x04, 0), (0x10, 0), (0x11, 0), (0x20, 25),
          (0x21, 12), (0x22, 33), (0x23, 33)]) ∧
    (opcode.toNat ∉ [0x00, 0x01, 0x02, 0x03, 0x04, 0x10, 0x11, 0x20, 0x21, 0x22, 0x23] →
      decode (opcode :: bytes) = .illegalOpcode opcode bytes)

/-- Decoding the encoding of any well-formed command gives it back and leaves the bytes after it (R110, R111, R113). -/
def Obligations.DecodeOfEncodeIsTheCommand : Prop :=
  ∀ (i : Instr) (rest : List Byte), i.wellFormed = true → decode (encode i ++ rest) = .command i rest

/-- Whatever decodes to a command is the encoding of that command: no operand bit is dropped, the reserved ones included,
and two different byte strings never decode to one command (R110, R111, R113, R114). -/
def Obligations.DecodedBytesAreTheEncoding : Prop :=
  ∀ (bytes rest : List Byte) (i : Instr), decode bytes = .command i rest →
    i.wellFormed = true ∧ bytes = encode i ++ rest

/-- A few command words written out from the table of R110 decode to their commands. -/
def Obligations.TableWordsDecode : Prop :=
  decode [0x00] = .command .nop [] ∧ decode [0x01, 0x11] = .command .reset [0x11] ∧
    decode [0x02, 0x8F, 0x07] = .command (.config 1 0 15 7) [] ∧ decode [0x03] = .command .status [] ∧
    decode [0x04] = .command .txsyncPoll [] ∧ decode [0x10] = .command .bit0 [] ∧
    decode [0x11] = .command .bit1 [] ∧
    decode (0x21 :: [1, 2, 3, 4, 5, 6, 7, 8, 9, 0xAA, 0x04, 0xAF]) =
      .command (.rsCheck [1, 2, 3, 4, 5, 6, 7, 8, 9, 0xAA, 0x04, 0xAF]) []

/-- R111: CONFIG byte 0 holds the mode in bit 7, three ignored bits, and the colour code in bits 3–0; byte 1 is the
delay. -/
def Obligations.ConfigOperandLayout : Prop :=
  ∀ (o0 o1 : Byte) (rest : List Byte), ∃ mode rsv cc, decode (0x02 :: o0 :: o1 :: rest) = .command (.config mode rsv cc o1) rest ∧
    mode.toNat = o0.toNat / 128 ∧ rsv.toNat = o0.toNat / 16 % 8 ∧ cc.toNat = o0.toNat % 16

/-- R300: no command faults and no command is refused: from every state, every command and every step answers a next state.
The stream and the waiting step are the model's (log entry 1). -/
def Obligations.EveryStepAnswersANextState : Prop :=
  (∀ s : State, ∃ t, step s = .next t) ∧ ∀ (i : Instr) (s : State), ∃ t, exec i s = .next t

/-- The response of R112: every command appends exactly one, of status OK with the payload length of R110; a step appends
that response for the command at the front of the stream, one of status 0xFF with no payload for an illegal opcode, and
none when it waits for a complete command. The stream and the waiting step are the model's (log entry 1). -/
def Obligations.EveryCommandAppendsOneResponse : Prop :=
  let length : Instr → Nat := fun
    | .nop => 0
    | .reset => 0
    | .config _ _ _ _ => 0
    | .status => 11
    | .txsyncPoll => 1
    | .bit0 => 1
    | .bit1 => 1
    | .bptcDecode _ => 12
    | .rsCheck _ => 1
    | .lcDecodeVh _ => 10
    | .lcDecodeTlc _ => 10
  (∀ (i : Instr) (s t : State), exec i s = .next t →
    ∃ payload, t.responses = s.responses ++ [okResponse payload] ∧ payload.length = length i) ∧
  (∀ s t : State, step s = .next t →
    match decode s.input with
    | .command i _ => ∃ payload, t.responses = s.responses ++ [okResponse payload] ∧ payload.length = length i
    | .illegalOpcode _ _ => t.responses = s.responses ++ [{ status := 0xFF, payload := [] }]
    | .incomplete => t = s)

/-! ### Control commands -/

/-- R280: NOP responds OK with no payload and writes no state. -/
def Obligations.NopOnlyResponds : Prop :=
  ∀ s : State, exec .nop s = .next { s with responses := s.responses ++ [{ status := 0x00, payload := [] }] }

/-- R282: RESET brings every element of the receive state to its reset value, `DELAYCNT` to `CFG_DELAY`, keeps the
configuration and the event stream, and is idempotent. -/
def Obligations.ResetClearsReceiveState : Prop :=
  (∀ s : State, exec .reset s = .next
    { cfgCc := s.cfgCc, cfgDelay := s.cfgDelay, cfgMode := s.cfgMode,
      buf := 0, ptr := 0, pat := 0, delayCnt := s.cfgDelay, locked := false, curSlot := .zero, slotTimer := 0,
      misMatch := 0, noSync := 0, syncP := false,
      slot0 := { st := .idle, miss := 0, n := 0, tag := none, endPos := none, expSync := none, seen := false,
                 kind := .data, inv := false },
      slot1 := { st := .idle, miss := 0, n := 0, tag := none, endPos := none, expSync := none, seen := false,
                 kind := .data, inv := false },
      bsSync := false, events := s.events,
      responses := s.responses ++ [{ status := 0x00, payload := [] }], input := s.input }) ∧
  (∀ s t u : State, exec .reset s = .next t → exec .reset t = .next u →
    u = { t with responses := t.responses ++ [{ status := 0x00, payload := [] }] })

/-- R283: CONFIG writes the three configuration registers and then does what RESET does with the new configuration; the
reserved bits change nothing. -/
def Obligations.ConfigWritesAndResets : Prop :=
  ∀ (s : State) (mode : BitVec 1) (rsv : BitVec 3) (cc : BitVec 4) (delay : Byte),
    exec (.config mode rsv cc delay) s = .next
      { cfgCc := cc, cfgDelay := delay, cfgMode := if mode = 1 then .single else .duplex,
        buf := 0, ptr := 0, pat := 0, delayCnt := delay, locked := false, curSlot := .zero, slotTimer := 0,
        misMatch := 0, noSync := 0, syncP := false,
        slot0 := { st := .idle, miss := 0, n := 0, tag := none, endPos := none, expSync := none, seen := false,
                   kind := .data, inv := false },
        slot1 := { st := .idle, miss := 0, n := 0, tag := none, endPos := none, expSync := none, seen := false,
                   kind := .data, inv := false },
        bsSync := false, events := s.events,
        responses := s.responses ++ [{ status := 0x00, payload := [] }], input := s.input }

/-- R284: the eleven STATUS bytes, as numbers, with `MISMATCH` 0 or 1 as it is between commands (R43); STATUS writes
nothing else and does not clear `BSSYNC`. -/
def Obligations.StatusReportsTheState : Prop :=
  ∀ s : State, s.misMatch.toNat ≤ 1 →
    ∃ payload, exec .status s = .next { s with responses := s.responses ++ [{ status := 0x00, payload := payload }] } ∧
      payload.map BitVec.toNat =
        [ (if s.cfgMode = .single then 128 else 0) + s.cfgCc.toNat,
          s.cfgDelay.toNat,
          (if s.locked then 128 else 0) + (if s.curSlot = .one then 64 else 0) + (if s.bsSync then 32 else 0) +
            16 * s.misMatch.toNat +
            4 * (match s.slot1.st with | .idle => 0 | .voice => 1 | .data => 2) +
            (match s.slot0.st with | .idle => 0 | .voice => 1 | .data => 2),
          32 * s.slot0.n.toNat + s.slot0.miss.toNat,
          32 * s.slot1.n.toNat + s.slot1.miss.toNat,
          s.ptr.toNat / 256, s.ptr.toNat % 256,
          s.slotTimer.toNat / 256, s.slotTimer.toNat % 256,
          s.delayCnt.toNat,
          s.noSync.toNat ]

/-- R285: TXSYNC_POLL returns `BSSYNC` as it was and clears it; nothing else changes, and a second poll returns 0. -/
def Obligations.TxsyncPollReadsAndClears : Prop :=
  (∀ s : State, exec .txsyncPoll s = .next
    { s with
      bsSync := false
      responses := s.responses ++ [{ status := 0x00, payload := [if s.bsSync then 0x01 else 0x00] }] }) ∧
  (∀ s t : State, exec .txsyncPoll s = .next t → exec .txsyncPoll t = .next
    { t with responses := t.responses ++ [{ status := 0x00, payload := [0x00] }] })

/-- R320: at power-up the configuration is zero, the event stream empty, and everything else as RESET with that
configuration leaves it: duplex, unlocked, both slots IDLE, `PTR` 0, nothing to discard, and waiting for a command. -/
def Obligations.PowerUpIsResetWithZeroConfiguration : Prop :=
  State.reset.cfgMode = .duplex ∧ State.reset.cfgCc = 0 ∧ State.reset.cfgDelay = 0 ∧ State.reset.events = [] ∧
    exec .reset State.reset =
      .next { State.reset with responses := State.reset.responses ++ [{ status := 0x00, payload := [] }] } ∧
    State.reset.locked = false ∧ State.reset.ptr = 0 ∧ State.reset.delayCnt = 0 ∧ State.reset.slot0.st = .idle ∧
    State.reset.slot1.st = .idle ∧ step State.reset = .next State.reset

/-! ### Whole-machine rules -/

/-- R33, R34, R35: the configuration registers are written only by CONFIG, by whatever step. -/
def Obligations.OnlyConfigWritesConfiguration : Prop :=
  ∀ s t : State, step s = .next t →
    (t.cfgCc = s.cfgCc ∧ t.cfgDelay = s.cfgDelay ∧ t.cfgMode = s.cfgMode) ∨
      ∃ mode rsv cc delay rest, decode s.input = .command (.config mode rsv cc delay) rest ∧
        t.cfgCc = cc ∧ t.cfgDelay = delay ∧ (t.cfgMode = .single ↔ mode = 1)

/-- R328, R78: the commands that are not BIT, RESET or CONFIG leave all receive state, the configuration, the events and
the rest of the command stream alone, but for TXSYNC_POLL's clearing of `BSSYNC`; so does an illegal opcode.
R328 is an inference the spec marks as its own. -/
def Obligations.InterleavedCommandsKeepReceiveState : Prop :=
  (∀ (i : Instr) (s t : State), exec i s = .next t →
    i ∉ [Instr.bit0, Instr.bit1, Instr.reset] → (∀ mode rsv cc delay, i ≠ .config mode rsv cc delay) →
    { t with responses := s.responses, bsSync := s.bsSync } = s ∧ (i ≠ .txsyncPoll → t.bsSync = s.bsSync)) ∧
  (∀ (s t : State) (opcode : Byte) (rest : List Byte), decode s.input = .illegalOpcode opcode rest →
    step s = .next t → { t with responses := s.responses, input := s.input } = s)

/-- R37: the cursor moves only to the next position of 576, on an accepted BIT, or to 0, by RESET or CONFIG. -/
def Obligations.CursorAdvancesOrResets : Prop :=
  ∀ (i : Instr) (s t : State), exec i s = .next t →
    t.ptr = s.ptr ∨
    ((i = .bit0 ∨ i = .bit1) ∧ s.delayCnt = 0 ∧ t.ptr.toNat = (s.ptr.toNat + 1) % 576) ∨
    ((i = .reset ∨ ∃ mode rsv cc delay, i = .config mode rsv cc delay) ∧ t.ptr = 0)

/-- R55: events are only appended, and only by BIT: no command retracts, reorders or changes an event already in the
stream. -/
def Obligations.EventsAreOnlyAppendedByBits : Prop :=
  ∀ (i : Instr) (s t : State), exec i s = .next t →
    s.events <+: t.events ∧ (i ≠ .bit0 → i ≠ .bit1 → t.events = s.events)

/-- The stateless decoders read no state and write only their response (R30, R130, R170, R190): for each operand there is
one payload, of the length of R110, that every state gets. -/
def Obligations.DecodersReadNoState : Prop :=
  ∀ operand : List Byte,
    (∃ payload, payload.length = 12 ∧
      ∀ s, exec (.bptcDecode operand) s = .next { s with responses := s.responses ++ [okResponse payload] }) ∧
    (∃ payload, payload.length = 1 ∧
      ∀ s, exec (.rsCheck operand) s = .next { s with responses := s.responses ++ [okResponse payload] }) ∧
    (∀ kind, ∃ payload, payload.length = 10 ∧
      ∀ s, exec (lcCommand kind operand) s = .next { s with responses := s.responses ++ [okResponse payload] })

/-- The invariant of the state between commands holds at power-up.
The invariant is the model's own collection of the bounds of 10_state.md. -/
def Obligations.PowerUpSatisfiesInvariant : Prop := State.reset.Inv

/-- Every step keeps the invariant of the state between commands: the counters and positions stay in the ranges of
10_state.md, an IDLE slot is disarmed and counts no misses, the flywheel is never written in duplex mode, and an unlocked
single-radio receiver holds no call.
The invariant is the model's own collection of the bounds of 10_state.md. -/
def Obligations.EveryStepKeepsInvariant : Prop :=
  ∀ s t : State, s.Inv → step s = .next t → t.Inv

/-! ### BPTC_DECODE -/

/-- The deinterleave is a bijection on the 196 positions, undone by the multiplier 181 (R132, R134). -/
def Obligations.DeinterleaveIsABijection : Prop :=
  ∀ coded : Coded,
    (∀ k < 196, (deinterleave params coded).getLsbD k = coded.getLsbD (13 * k % 196)) ∧
    (∀ j < 196, (deinterleave params coded).getLsbD (181 * j % 196) = coded.getLsbD j)

/-- The four check equations and the syndrome table written out (R135, R136).
R136 is an inference the spec marks as its own. Default parameters (R8; log entry 4). -/
def Obligations.HammingSyndromeTable : Prop :=
  (∀ w : BitVec 15, (List.range 4).map (fun j => (syndrome params w).getLsbD j) = checkBits w) ∧
  (List.range 16).map (fun n => h15Position params (BitVec.ofNat 4 n)) =
    [none, some 11, some 12, some 8, some 13, some 5, some 9, some 3, some 14, some 0, some 6, some 1, some 10, some 7,
      some 4, some 2]

/-- The word decoder leaves a codeword, corrects every single flip of one, and always ends on a codeword one flip away
(R136, R137: every nonzero syndrome selects a position).
R136 is an inference the spec marks as its own. Default parameters (R8; log entry 4). -/
def Obligations.HammingCorrectsOneFlip : Prop :=
  (∀ w : BitVec 15, IsCodeword w → hcorr params w = (w, none)) ∧
  (∀ (w : BitVec 15) (pos : Nat), IsCodeword w → pos < 15 → hcorr params (flipBit w pos) = (w, some pos)) ∧
  (∀ w : BitVec 15, IsCodeword (hcorr params w).1 ∧ ((hcorr params w).1 = w ∨ ∃ pos < 15, (hcorr params w).1 = flipBit w pos))

/-- The correction guarantee (R147): BPTC_DECODE of the interleave of a block code matrix, corrupted in at most one bit of
every data row and of every column, and anywhere in the reserved bit, responds with the matrix's 96 information bits.
R147 is an inference the spec marks as its own. Default parameters (R8; log entry 4). -/
def Obligations.BptcCorrectsOneErrorPerUnit : Prop :=
  ∀ (s : State) (operand : List Byte) (W e : Work), operand.length = 25 → IsBlock W → OneErrorPerUnit e →
    (∀ k < 196, stringBit operand (13 * k % 196) = (W.getLsbD k ^^ e.getLsbD k)) →
    exec (.bptcDecode operand) s = .next
      { s with
        responses := s.responses ++
          [okResponse ((List.range 12).map fun i =>
            ofBits 8 fun j => W.getLsbD (1 + 15 * ((8 * i + (7 - j)) / 11) + (8 * i + (7 - j)) % 11))] }

/-- The reserved matrix bit, which is coded bit 0, and the ignored operand bits 196–199 never change the result
(R114, R144): operands that agree on bits 1–195 get one response.
R144 is an inference the spec marks as its own. Default parameters (R8; log entry 4). -/
def Obligations.BptcIgnoresReservedBits : Prop :=
  ∀ (s : State) (a b : List Byte), a.length = 25 → b.length = 25 →
    (∀ i, 1 ≤ i → i < 196 → stringBit a i = stringBit b i) → exec (.bptcDecode a) s = exec (.bptcDecode b) s

/-- BPTC_DECODE on any operand, inside or outside the correction guarantee. The row step (R138) leaves a codeword and else
flips the one cell that makes the row a codeword and sets the flip flag; the column step (R139) does the same with the column
under its two forced zeros, but writes nothing and leaves the flag when the syndrome (0x9 or 0xB) selects one of those. The
response is that of the matrix after `n` passes (R140): every pass but the last flipped a bit, and the last is the fifth or
flipped none.
Default parameters (R8; log entry 4). -/
def Obligations.BptcRunsItsPasses : Prop :=
  (∀ (W : Work) (flip : Bool) (r : Nat), r < 9 →
    (∀ c < 15, (rowWord W r).getLsbD c = W.getLsbD (1 + 15 * r + c)) ∧
    (IsCodeword (rowWord W r) → rowCorrect params (W, flip) r = (W, flip)) ∧
    (∀ c < 15, IsCodeword (flipBit (rowWord W r) c) →
      rowCorrect params (W, flip) r = (flipBit W (1 + 15 * r + c), true))) ∧
  (∀ (W : Work) (flip : Bool) (c : Nat), c < 15 →
    (∀ i < 15, (colWord W c).getLsbD i = if i < 2 then false else W.getLsbD (1 + 15 * (i - 2) + c)) ∧
    (IsCodeword (colWord W c) → colCorrect params (W, flip) c = (W, flip)) ∧
    (checkBits (colWord W c) = [true, false, false, true] ∨ checkBits (colWord W c) = [true, true, false, true] →
      colCorrect params (W, flip) c = (W, flip)) ∧
    (∀ r < 13, IsCodeword (flipBit (colWord W c) (2 + r)) →
      colCorrect params (W, flip) c = (flipBit W (1 + 15 * r + c), true))) ∧
  (∀ (s : State) (operand : List Byte), operand.length = 25 →
    ∃ (n : Nat) (after : Nat → Work), 1 ≤ n ∧ n ≤ 5 ∧
      (∀ k < 196, (after 0).getLsbD k = stringBit operand (13 * k % 196)) ∧
      (∀ i < n, after (i + 1) = (rowsThenColumns (after i)).1) ∧
      (∀ i, i + 1 < n → (rowsThenColumns (after i)).2 = true) ∧
      (n < 5 → (rowsThenColumns (after (n - 1))).2 = false) ∧
      exec (.bptcDecode operand) s = .next
        { s with responses := s.responses ++ [okResponse (informationBytes (after n))] })

/-! ### RS_CHECK -/

/-- The table arithmetic is the arithmetic of GF(2)[x] modulo x^8+x^4+x^3+x^2+1: the product through EXP and LOG is the
shift-and-add product, and EXP[i] is the i-fold doubling of 1 (R171, R172).
Default parameters (R8; log entry 4). -/
def Obligations.TableProductIsFieldProduct : Prop :=
  (∀ a b : Byte, gmul params a b = fieldMul a b) ∧ ∀ i, gexp params i = alphaPower i

/-- RS_CHECK answers 0x01 exactly when the codeword, as a polynomial with CW[0] the highest coefficient, vanishes at α^0, α^1
and α^2, evaluated by Horner's scheme without tables (R173, R174, R175); it changes nothing but the response.
Default parameters (R8; log entry 4). -/
def Obligations.RsCheckEvaluatesThePolynomial : Prop :=
  ∀ (s : State) (cw : List Byte), cw.length = 12 →
    exec (.rsCheck cw) s = .next
      { s with
        responses := s.responses ++
          [okResponse [if fieldEval (alphaPower 0) cw = 0 ∧ fieldEval (alphaPower 1) cw = 0 ∧ fieldEval (alphaPower 2) cw = 0
            then 0x01 else 0x00]] }

/-- A codeword that differs from a valid one in exactly one byte is answered 0x00 (R177).
R177 is an inference the spec marks as its own. Default parameters (R8; log entry 4). -/
def Obligations.RsRejectsOneWrongByte : Prop :=
  ∀ (s : State) (cw : List Byte) (i : Nat) (x : Byte), cw.length = 12 → i < 12 → rsValid params cw = true →
    cw.getD i 0 ≠ x →
    exec (.rsCheck (cw.set i x)) s = .next { s with responses := s.responses ++ [okResponse [0x00]] }

/-- The detection guarantee (R177): a codeword that differs from a valid one in one, two or three byte positions is
answered 0x00.
R177 is an inference the spec marks as its own. Default parameters (R8; log entry 4). -/
def Obligations.RsRejectsUpToThreeWrongBytes : Prop :=
  ∀ (s : State) (cw cw' : List Byte), cw.length = 12 → cw'.length = 12 → rsValid params cw = true → cw' ≠ cw →
    ((List.range 12).filter fun i => cw'.getD i 0 != cw.getD i 0).length ≤ 3 →
    exec (.rsCheck cw') s = .next { s with responses := s.responses ++ [okResponse [0x00]] }

/-! ### LC_DECODE -/

/-- R195, R197: LC_DECODE answers PARITY with the record bytes when the unmasked block is a valid codeword; FALLBACK when
it is not but FLCO is 0 or 1 and DST is not 0; else REJECT and nine zero bytes. `raw` is the decoded block of burst bits 0–97
and 166–263, its bytes 9–11 XORed with the mask of the kind.
Default parameters (R8; log entry 4). -/
def Obligations.LcDecodeAcceptanceRule : Prop :=
  ∀ (s : State) (burst : List Byte) (kind : LcKind), burst.length = 33 →
    ∀ (coded : Coded) (out raw : List Byte),
      (∀ i < 98, coded.getLsbD i = stringBit burst i ∧ coded.getLsbD (98 + i) = stringBit burst (166 + i)) →
      out = bptc params coded →
      raw = out.take 9 ++ (out.drop 9).map (fun b => b ^^^ (match kind with | .vh => 0x96 | .tlc => 0x99 : Byte)) →
      exec (lcCommand kind burst) s = .next
        { s with
          responses := s.responses ++
            [okResponse
              (if rsValid params raw then 0x01 :: raw.take 9
              else if (raw.getD 0 0).toNat % 64 ≤ 1 ∧
                  65536 * (raw.getD 3 0).toNat + 256 * (raw.getD 4 0).toNat + (raw.getD 5 0).toNat ≠ 0 then
                0x02 :: raw.take 9
              else List.replicate 10 0x00)] }

/-- R190: LC_DECODE answers every burst, reads and writes no state, and its result depends only on the kind and on the burst
bits outside the sync and burst-type fields (98–165): bursts that agree there get one payload, in every state. -/
def Obligations.LcDecodeReadsOnlyTheInformationBits : Prop :=
  ∀ (a b : List Byte) (kind : LcKind), a.length = 33 → b.length = 33 →
    (∀ i < 98, stringBit a i = stringBit b i ∧ stringBit a (166 + i) = stringBit b (166 + i)) →
    ∃ payload, ∀ s : State,
      exec (lcCommand kind a) s = .next { s with responses := s.responses ++ [okResponse payload] } ∧
      exec (lcCommand kind b) s = .next { s with responses := s.responses ++ [okResponse payload] }

/-- R101: the fields of the output record, as numbers, and that its nine bytes are bytes 0–8 of the block. -/
def Obligations.LcRecordFields : Prop :=
  ∀ raw : List Byte, 9 ≤ raw.length →
    (LcRecord.ofBytes raw).toBytes = raw.take 9 ∧
      (LcRecord.ofBytes raw).pf.toNat = (raw.getD 0 0).toNat / 128 ∧
      (LcRecord.ofBytes raw).r.toNat = (raw.getD 0 0).toNat / 64 % 2 ∧
      (LcRecord.ofBytes raw).flco.toNat = (raw.getD 0 0).toNat % 64 ∧
      (LcRecord.ofBytes raw).fid = raw.getD 1 0 ∧ (LcRecord.ofBytes raw).so = raw.getD 2 0 ∧
      (LcRecord.ofBytes raw).dst.toNat =
        65536 * (raw.getD 3 0).toNat + 256 * (raw.getD 4 0).toNat + (raw.getD 5 0).toNat ∧
      (LcRecord.ofBytes raw).src.toNat =
        65536 * (raw.getD 6 0).toNat + 256 * (raw.getD 7 0).toNat + (raw.getD 8 0).toNat

/-! ### BIT: the steps of one bit -/

/-- Step 0 (R212): while `DELAYCNT` is not 0 a BIT, of either value, decrements it, returns the current `ACTIVE` and
changes nothing else; RESET and CONFIG load `DELAYCNT` with `CFG_DELAY`, so that the first `CFG_DELAY` bits after either are
dropped, whatever they are. -/
def Obligations.DelayedBitsAreDiscarded : Prop :=
  (∀ (s : State) (b : Bool), s.delayCnt ≠ 0 →
    exec (bitCommand b) s = .next
      { s with
        delayCnt := s.delayCnt - 1
        responses := s.responses ++
          [okResponse [if s.slot0.st ≠ .idle ∨ s.slot1.st ≠ .idle then 0x01 else 0x00]] }) ∧
  (∀ (s t : State) (i : Instr) (bs : List Bool), (i = .reset ∨ ∃ mode rsv cc delay, i = .config mode rsv cc delay) →
    exec i s = .next t → bs.length ≤ t.cfgDelay.toNat →
    t.delayCnt = t.cfgDelay ∧
      receiveBits bs t = { t with delayCnt := BitVec.ofNat 8 (t.cfgDelay.toNat - bs.length) })

/-- Every accepted BIT, of either value, answers a next state: the cursor advances by one modulo 576 (R219), the response
is `ACTIVE` of the state it leaves (R270), the events only grow, and the configuration, the delay count and the command
stream are unchanged (R211). -/
def Obligations.AcceptedBitCompletes : Prop :=
  ∀ (s : State) (b : Bool), s.delayCnt = 0 →
    ∃ t, exec (bitCommand b) s = .next t ∧
      t.ptr.toNat = (s.ptr.toNat + 1) % 576 ∧
      t.responses = s.responses ++ [okResponse [if t.slot0.st ≠ .idle ∨ t.slot1.st ≠ .idle then 0x01 else 0x00]] ∧
      s.events <+: t.events ∧ t.cfgCc = s.cfgCc ∧ t.cfgDelay = s.cfgDelay ∧ t.cfgMode = s.cfgMode ∧ t.delayCnt = 0 ∧
      t.input = s.input

/-- An accepted BIT writes `BUF[p]` and shifts `PAT`, and every other bit of `BUF` keeps its value, unless the bit ends in
a duplex sync loss (a new `LOST` event) or an unlock (`LOCKED` goes from 1 to 0), which clear both (R36, R38, R213, R214,
R244, R266). For a cursor of 576 or more, log entry 6. -/
def Obligations.AcceptedBitWritesOneBufferBit : Prop :=
  ∀ (s t : State) (b : Bool), s.delayCnt = 0 → exec (bitCommand b) s = .next t →
    Stored b s t ∨
    (t.buf = 0 ∧ t.pat = 0 ∧
      ((s.cfgMode = .duplex ∧ ∃ es k, t.events = s.events ++ es ∧ Event.lost k ∈ es) ∨
        (s.cfgMode = .single ∧ s.locked = true ∧ t.locked = false)))

/-- An accepted BIT that finds no sync and ends no slot's period, nor the flywheel's, writes the bit, moves the cursor and,
in a locked single-radio receiver, advances `SLOTTIMER` by one; it changes nothing else (R211, R220, R262). For a cursor of
576 or more, log entry 6. Default parameters (R8; log entry 4). -/
def Obligations.QuietBitOnlyStoresTheBit : Prop :=
  ∀ (s : State) (b : Bool), s.delayCnt = 0 → syncFound params (storeBit b s) = none →
    s.slot0.endPos ≠ some s.ptr → s.slot1.endPos ≠ some s.ptr →
    (s.cfgMode = .duplex ∨ s.locked = false ∨ s.slotTimer.toNat < 287) →
    ∃ t, exec (bitCommand b) s = .next t ∧ Stored b s t ∧ t.ptr.toNat = (s.ptr.toNat + 1) % 576 ∧
      t.slotTimer.toNat =
        (if s.cfgMode = .single ∧ s.locked = true then s.slotTimer.toNat + 1 else s.slotTimer.toNat) ∧
      { t with buf := s.buf, pat := s.pat, ptr := s.ptr, slotTimer := s.slotTimer, responses := s.responses } = s

/-- R218, R221: a word within distance 3 of an enabled template is reported as that template, whatever the order of the
table, and a word at distance 4 or more from every enabled template is reported as none.
Default parameters (R8; log entry 4). -/
def Obligations.CorrelatorAcceptsWithinThree : Prop :=
  ∀ (mode : Mode) (w : BitVec 48),
    (∀ t ∈ syncTable mode, hammingDistance w t.1 ≤ 3 → corr params mode w = some t.2) ∧
    ((∀ t ∈ syncTable mode, 4 ≤ hammingDistance w t.1) → corr params mode w = none)

/-- R215, with the window of R216 and the home slot of R217: correlation is attempted exactly when a slot in a call is
within two positions of its expected sync, or there is no home slot, or the home slot is IDLE.
Default parameters (R8; log entry 4). -/
def Obligations.CorrelationGateRule : Prop :=
  ∀ s : State,
    let inWin := fun r : SlotRec => r.st ≠ .idle ∧ ∃ e, r.expSync = some e ∧ cdist s.ptr e ≤ 2
    let homeIdle :=
      match s.cfgMode with
      | .duplex => if s.ptr.toNat < 288 then s.slot0.st = .idle else s.slot1.st = .idle
      | .single => s.locked = false ∨ (s.slot s.curSlot).st = .idle
    (inWin s.slot0 ∨ inWin s.slot1 ∨ homeIdle → syncFound params s = corr params s.cfgMode (s.pat.setWidth 48)) ∧
    (¬ (inWin s.slot0 ∨ inWin s.slot1 ∨ homeIdle) → syncFound params s = none)

/-- A sync match in duplex mode (R216, R217, R225, R226, R230): slot K is the lowest-numbered slot in window, else the cursor
half; its `ENDPOS`, `EXPSYNC`, `SEEN`, `KIND` and `INV` are written, an `ENDPOS` due at this bit included, `SYNCP` is set,
`BSSYNC` is set for a BS-role template. If the other slot's period ends at this bit, that slot completes on the state so
written; else it, the flywheel and every other element but the stored bit and the cursor are unchanged.
Default parameters (R8; log entry 4). -/
def Obligations.DuplexMatchFramesItsSlot : Prop :=
  ∀ (s : State) (b : Bool) (m : SyncMatch) (k : SlotId), s.delayCnt = 0 → s.cfgMode = .duplex → s.ptr.toNat < 576 →
    syncFound params (storeBit b s) = some m →
    (InWindow s.ptr s.slot0 ∧ k = .zero ∨ ¬ InWindow s.ptr s.slot0 ∧ InWindow s.ptr s.slot1 ∧ k = .one ∨
      ¬ InWindow s.ptr s.slot0 ∧ ¬ InWindow s.ptr s.slot1 ∧ k = if s.ptr.toNat < 288 then .zero else .one) →
    ((s.slot k.other).endPos ≠ some s.ptr →
      ∃ t, exec (bitCommand b) s = .next t ∧ Stored b s t ∧ t.ptr.toNat = (s.ptr.toNat + 1) % 576 ∧
        t.slot k = (s.slot k).framedAt s.ptr m ∧ t.slot k.other = s.slot k.other ∧ t.syncP = true ∧
        t.bsSync = (s.bsSync || decide (m.role = .bs)) ∧
        { t with
          buf := s.buf, pat := s.pat, ptr := s.ptr, responses := s.responses, slot0 := s.slot0, slot1 := s.slot1,
          syncP := s.syncP, bsSync := s.bsSync } = s) ∧
    ((s.slot k.other).endPos = some s.ptr →
      ∃ t, exec (bitCommand b) s = .next t ∧
        t = { complete params k.other
                (({ storeBit b s with syncP := true, bsSync := s.bsSync || decide (m.role = .bs) } : State).setSlot k
                  ((s.slot k).framedAt s.ptr m)) with
              ptr := BitVec.ofNat 10 ((s.ptr.toNat + 1) % 576)
              responses := s.responses ++
                [okResponse [if t.slot0.st ≠ .idle ∨ t.slot1.st ≠ .idle then 0x01 else 0x00]] })

/-- Lock (R260, with R225 and R230): in single-radio mode the first accepted match sets `LOCKED`, takes `CURSLOT` from the
CACH 179 bits before the sync end and frames that slot, overriding its `ENDPOS`; after step 4 of the same bit `SLOTTIMER` is
180. If the other slot's period ends at this bit, that slot completes on the state so written; else the other slot and the
events are unchanged. `BSSYNC` is unchanged.
Default parameters (R8; log entry 4). -/
def Obligations.FirstMatchLocksTheFlywheel : Prop :=
  ∀ (s : State) (b : Bool) (m : SyncMatch) (k : SlotId), s.delayCnt = 0 → s.cfgMode = .single → s.locked = false →
    s.ptr.toNat < 576 → syncFound params (storeBit b s) = some m →
    k = tactSlot params (storeBit b s).buf ((s.ptr.toNat + 576 - 179) % 576) →
    ((s.slot k.other).endPos ≠ some s.ptr →
      ∃ t, exec (bitCommand b) s = .next t ∧ Stored b s t ∧ t.ptr.toNat = (s.ptr.toNat + 1) % 576 ∧
        t.locked = true ∧ t.curSlot = k ∧ t.slotTimer = 180 ∧ t.misMatch = 0 ∧ t.noSync = 0 ∧ t.syncP = true ∧
        t.slot k = (s.slot k).framedAt s.ptr m ∧ t.slot k.other = s.slot k.other ∧ t.bsSync = s.bsSync ∧
        t.events = s.events) ∧
    ((s.slot k.other).endPos = some s.ptr →
      ∃ t, exec (bitCommand b) s = .next t ∧ t.bsSync = s.bsSync ∧
        t = { complete params k.other
                (({ storeBit b s with
                    locked := true, curSlot := k, slotTimer := 179, misMatch := 0, noSync := 0,
                    syncP := true } : State).setSlot k ((s.slot k).framedAt s.ptr m)) with
              slotTimer := 180
              ptr := BitVec.ofNat 10 ((s.ptr.toNat + 1) % 576)
              responses := s.responses ++
                [okResponse [if t.slot0.st ≠ .idle ∨ t.slot1.st ≠ .idle then 0x01 else 0x00]] })

/-- Re-alignment (R261, with R216, R217, R225 and R230): a match of a locked receiver belongs to the lowest-numbered slot in
window, else to `CURSLOT`; it frames that slot, overriding its `ENDPOS`, sets `CURSLOT` to it and `SLOTTIMER` to 179 (180 after
step 4), and leaves `MISMATCH`, `NOSYNC`, `LOCKED` and `BSSYNC`. If the other slot's period ends at this bit, that slot
completes on the state so written; else the other slot and the events are unchanged.
Default parameters (R8; log entry 4). -/
def Obligations.LockedMatchRealignsTheFlywheel : Prop :=
  ∀ (s : State) (b : Bool) (m : SyncMatch) (k : SlotId), s.delayCnt = 0 → s.cfgMode = .single → s.locked = true →
    s.ptr.toNat < 576 → syncFound params (storeBit b s) = some m →
    (InWindow s.ptr s.slot0 ∧ k = .zero ∨ ¬ InWindow s.ptr s.slot0 ∧ InWindow s.ptr s.slot1 ∧ k = .one ∨
      ¬ InWindow s.ptr s.slot0 ∧ ¬ InWindow s.ptr s.slot1 ∧ k = s.curSlot) →
    ((s.slot k.other).endPos ≠ some s.ptr →
      ∃ t, exec (bitCommand b) s = .next t ∧ Stored b s t ∧ t.ptr.toNat = (s.ptr.toNat + 1) % 576 ∧
        t.locked = true ∧ t.curSlot = k ∧ t.slotTimer = 180 ∧ t.misMatch = s.misMatch ∧ t.noSync = s.noSync ∧
        t.syncP = true ∧ t.slot k = (s.slot k).framedAt s.ptr m ∧ t.slot k.other = s.slot k.other ∧
        t.bsSync = s.bsSync ∧ t.events = s.events) ∧
    ((s.slot k.other).endPos = some s.ptr →
      ∃ t, exec (bitCommand b) s = .next t ∧
        t.locked = true ∧ t.misMatch = s.misMatch ∧ t.noSync = s.noSync ∧ t.bsSync = s.bsSync ∧
        t = { complete params k.other
                (({ storeBit b s with curSlot := k, slotTimer := 179, syncP := true } : State).setSlot k
                  ((s.slot k).framedAt s.ptr m)) with
              slotTimer := 180
              ptr := BitVec.ofNat 10 ((s.ptr.toNat + 1) % 576)
              responses := s.responses ++
                [okResponse [if t.slot0.st ≠ .idle ∨ t.slot1.st ≠ .idle then 0x01 else 0x00]] })

/-- The slot indicator (R250–R253). The Hamming(7,4) decoder of the TACT word leaves a codeword and corrects every single
flip of one; so, where the seven TACT bits of the CACH at `q` are a codeword with at most one bit wrong (bit `wrong`, none
for 7 and above), `TACTSLOT` is the codeword's TC bit: 0 names slot 0, 1 names slot 1.
Default parameters (R8; log entry 4). -/
def Obligations.TactSlotSurvivesOneWrongBit : Prop :=
  ∀ t : BitVec 7,
    (t.getLsbD 4 = (t.getLsbD 0 ^^ t.getLsbD 1 ^^ t.getLsbD 2)) → (t.getLsbD 5 = (t.getLsbD 1 ^^ t.getLsbD 2 ^^ t.getLsbD 3)) →
    (t.getLsbD 6 = (t.getLsbD 0 ^^ t.getLsbD 1 ^^ t.getLsbD 3)) →
    (tactCorrect t = t ∧ ∀ j < 7, tactCorrect (flipBit t j) = t) ∧
    (∀ (buf : Buf) (q wrong : Nat),
      (∀ j < 7, buf.getLsbD ((q + [0, 4, 8, 12, 13, 17, 21].getD j 0) % 576) = (t.getLsbD j ^^ decide (j = wrong))) →
      tactSlot params buf q = if t.getLsbD 1 then .one else .zero)

/-! ### BIT: burst completion -/

/-- R211, R227, R230, in both modes: an accepted BIT that finds no sync is step 1, then the completion of slot 0 if this bit
is its period end, then that of slot 1 if this bit is its period end, then step 4 (`FLYWHEEL`, which acts on a locked
single-radio receiver only), then the advance of the cursor and the response `ACTIVE`.
Default parameters (R8; log entry 4). -/
def Obligations.BitWithoutSyncCompletesDueSlots : Prop :=
  ∀ (s : State) (b : Bool), s.delayCnt = 0 → syncFound params (storeBit b s) = none →
    let s0 := if s.slot0.endPos = some s.ptr then complete params .zero (storeBit b s) else storeBit b s
    let s1 := if s.slot1.endPos = some s.ptr then complete params .one s0 else s0
    ∃ t, exec (bitCommand b) s = .next t ∧
      t = { flywheel params s1 with
            ptr := BitVec.ofNat 10 ((s.ptr.toNat + 1) % 576)
            responses := s.responses ++
              [okResponse [if t.slot0.st ≠ .idle ∨ t.slot1.st ≠ .idle then 0x01 else 0x00]] }

/-- R231: bit `i` of the assembled burst is the bit received `263 - i` bits before the one at `p`, complemented when the
burst was framed by an inverted template; byte `i div 8` of the payload holds it at bit `7 - (i mod 8)`. -/
def Obligations.BurstIsTheLast264Bits : Prop :=
  ∀ (buf : Buf) (p : BitVec 10) (inv : Bool) (i : Nat), i < 264 →
    (assemble buf p inv).getLsbD i = (buf.getLsbD ((p.toNat + 576 - 263 + i) % 576) ^^ inv) ∧
      stringBit (payloadOf (assemble buf p inv)) i = (assemble buf p inv).getLsbD i

/-- R233 (with R245): a voice-sync burst is forwarded with type 0x20, `N` and `MISS` become 0, `ST` does not change; an
IDLE slot is disarmed. Nothing else changes.
Default parameters (R8; log entry 4). -/
def Obligations.VoiceSyncBurstCompletion : Prop :=
  ∀ (s : State) (k : SlotId), (s.slot k).seen = true → (s.slot k).kind = .voice →
    complete params k s =
      ({ s with
        events := s.events ++ [.burst k 0x20 (payloadOf (assemble s.buf s.ptr (s.slot k).inv))] } : State).setSlot k
        (if (s.slot k).st = .idle then
          { s.slot k with seen := false, n := 0, miss := 0, endPos := none, expSync := none }
        else { s.slot k with seen := false, n := 0, miss := 0 })

/-- R235 (with R243, R244 and R245): in duplex mode a data-sync burst of another colour code is discarded: no `BURST` and no
`LC`, and one more miss if the slot is in a call. Below the loss threshold nothing else changes, but that an IDLE slot is
disarmed; the miss that reaches 13 appends `LOST` alone, resets the record and clears `BUF` and `PAT`, and nothing else
changes.
Default parameters (R8; log entry 4). -/
def Obligations.ColourCodeMismatchIsDiscarded : Prop :=
  ∀ (s : State) (k : SlotId), s.cfgMode = .duplex → (s.slot k).seen = true → (s.slot k).kind = .data →
    (classifyDefault (assemble s.buf s.ptr (s.slot k).inv)).1 ≠ s.cfgCc →
    ((s.slot k).st = .idle → complete params k s =
      s.setSlot k { s.slot k with seen := false, miss := 0, endPos := none, expSync := none }) ∧
    ((s.slot k).st ≠ .idle → (s.slot k).miss.toNat + 1 < 13 → complete params k s =
      s.setSlot k { s.slot k with seen := false, miss := (s.slot k).miss + 1 }) ∧
    ((s.slot k).st ≠ .idle → (s.slot k).miss.toNat + 1 = 13 → complete params k s =
      ({ s with events := s.events ++ [.lost k], buf := 0, pat := 0 } : State).setSlot k
        { st := .idle, miss := 0, n := 0, tag := none, endPos := none, expSync := none, seen := false, kind := .data,
          inv := false })

/-- R236, R237, R238 (with R245): an accepted data-sync burst is forwarded with type `0x40 | DT`, followed by an `LC` event
for a voice-LC header or a terminator whose record is accepted; `MISS` becomes 0 and the record changes as the table of
R237 says; a slot left IDLE is disarmed. Nothing else changes.
Default parameters (R8; log entry 4). -/
def Obligations.AcceptedDataSyncCompletion : Prop :=
  ∀ (s : State) (k : SlotId) (burst : Burst) (dt : BitVec 4) (r : SlotRec), (s.slot k).seen = true →
    (s.slot k).kind = .data → burst = assemble s.buf s.ptr (s.slot k).inv →
    (s.cfgMode = .single ∨ (classifyDefault burst).1 = s.cfgCc) → dt = (classifyDefault burst).2 →
    r = { s.slot k with
          seen := false, miss := 0,
          st := if dt = 0 ∨ dt = 1 then .voice else if dt = 2 then .idle else if dt = 6 then .data else (s.slot k).st,
          n := if dt = 0 ∨ dt = 1 then 5 else (s.slot k).n,
          tag := if dt = 6 then some 6
            else if (dt = 7 ∨ dt = 8 ∨ dt = 10) ∧ (s.slot k).st = .data then some dt else (s.slot k).tag } →
    complete params k s =
      ({ s with
        events := s.events ++ [.burst k (0x40 ||| dt.setWidth 8) (payloadOf burst)] ++
          (if dt = 1 then ((lcx params burst .vh).map fun x => Event.lc k .vh x.1 x.2).toList
          else if dt = 2 then ((lcx params burst .tlc).map fun x => Event.lc k .tlc x.1 x.2).toList
          else []) } : State).setSlot k (if r.st = .idle then { r with endPos := none, expSync := none } else r)

/-- R240, R241: at a period end without a match and below the loss threshold, a voice call forwards a predicted frame
(type 0x20 and `N` 0 after position 5, else `N + 1` as both), and a slot in a call counts one miss; a data call appends no
event. Nothing else changes.
Default parameters (R8; log entry 4). -/
def Obligations.MissedPeriodOfACall : Prop :=
  ∀ (s : State) (k : SlotId), (s.slot k).seen = false →
    (s.slot k).miss.toNat + 1 < (match s.cfgMode with | .duplex => 13 | .single => 30) →
    ((s.slot k).st = .voice → complete params k s =
      ({ s with
        events := s.events ++
          [.burst k (if 5 ≤ (s.slot k).n.toNat then 0x20 else BitVec.ofNat 8 ((s.slot k).n.toNat + 1))
            (payloadOf (assemble s.buf s.ptr (s.slot k).inv))] } : State).setSlot k
        { s.slot k with
          miss := (s.slot k).miss + 1
          n := if 5 ≤ (s.slot k).n.toNat then 0 else (s.slot k).n + 1 }) ∧
    ((s.slot k).st = .data → complete params k s = s.setSlot k { s.slot k with miss := (s.slot k).miss + 1 })

/-- R240, R241, R245: at a period end without a match an IDLE slot appends no event, counts no miss and is disarmed.
Default parameters (R8; log entry 4). -/
def Obligations.MissedPeriodOfAnIdleSlot : Prop :=
  ∀ (s : State) (k : SlotId), (s.slot k).seen = false → (s.slot k).st = .idle →
    complete params k s = s.setSlot k { s.slot k with endPos := none, expSync := none, miss := 0 }

/-- R243, R244: when the miss count reaches 13 (duplex) or 30 (single-radio), a `LOST` is appended after the predicted
frame of a voice call, the slot record is reset, and in duplex mode `BUF` and `PAT` are cleared. The other slot, the
cursor, the flywheel, `BSSYNC` and the configuration are unchanged.
Default parameters (R8; log entry 4). -/
def Obligations.SyncLossAtTheThreshold : Prop :=
  ∀ (s : State) (k : SlotId), (s.slot k).seen = false → (s.slot k).st ≠ .idle →
    (s.slot k).miss.toNat + 1 = (match s.cfgMode with | .duplex => 13 | .single => 30) →
    complete params k s =
      ({ s with
        events := s.events ++
          (if (s.slot k).st = .voice then
            [.burst k (if 5 ≤ (s.slot k).n.toNat then 0x20 else BitVec.ofNat 8 ((s.slot k).n.toNat + 1))
              (payloadOf (assemble s.buf s.ptr (s.slot k).inv))]
          else []) ++ [.lost k]
        buf := if s.cfgMode = .duplex then 0 else s.buf
        pat := if s.cfgMode = .duplex then 0 else s.pat } : State).setSlot k
        { st := .idle, miss := 0, n := 0, tag := none, endPos := none, expSync := none, seen := false, kind := .data,
          inv := false }

/-- §8 of the source (R243), over accepted bits: from a state between commands in which slot `k` is in a call with `MISS` 0
and no match pending, `n` two-slot periods (576 `n` bits) in which no sync is found are `n` misses and no loss of the call
while `n` is below 13 (duplex) or 30 (single-radio), and at 13 or 30 exactly one `LOST` and a reset record. In duplex mode the
count is of `LOST(k)`, whatever the other slot does. In single-radio mode a phase correction may move the record to the other
number (R264), so the record is found by its `EXPSYNC`, and the count is of all `LOST` events: one for this call, and one more
if the other slot too was in a call with no match pending.
Default parameters (R8; log entry 4). -/
def Obligations.ThresholdMissesGiveOneLoss : Prop :=
  ∀ (s : State) (k : SlotId) (bs : List Bool) (n : Nat), s.Inv → s.delayCnt = 0 →
    (s.slot k).st ≠ .idle → (s.slot k).seen = false → (s.slot k).miss = 0 → bs.length = 576 * n → NoSyncRun bs s →
    let t := receiveBits bs s
    let otherCall := if (s.slot k.other).st ≠ .idle ∧ (s.slot k.other).seen = false then 1 else 0
    (s.cfgMode = .duplex →
      (n < 13 → t.events.count (.lost k) = s.events.count (.lost k) ∧ (t.slot k).miss.toNat = n ∧
        (t.slot k).st = (s.slot k).st) ∧
      (n = 13 → t.events.count (.lost k) = s.events.count (.lost k) + 1 ∧ t.slot k = SlotRec.reset)) ∧
    (s.cfgMode = .single →
      (n < 30 → lostCount t.events ≤ lostCount s.events + otherCall ∧
        ∃ j, (t.slot j).expSync = (s.slot k).expSync ∧ (t.slot j).miss.toNat = n ∧ (t.slot j).st = (s.slot k).st) ∧
      (n = 30 → lostCount t.events = lostCount s.events + 1 + otherCall ∧ ∃ j, t.slot j = SlotRec.reset))

/-- R227: the events of one BIT are those of slot 0's completion and then those of slot 1's, each at most a `BURST`, then an
`LC`, then a `LOST`. -/
def Obligations.EventsOfOneBitAreOrdered : Prop :=
  ∀ (s t : State) (b : Bool), exec (bitCommand b) s = .next t →
    ∃ es0 es1, t.events = s.events ++ es0 ++ es1 ∧ CompletionEvents .zero es0 ∧ CompletionEvents .one es1

/-! ### BIT: the flywheel -/

/-- R262: in duplex mode and while unlocked step 4 does nothing; within a slot period it only advances `SLOTTIMER`. -/
def Obligations.FlywheelWithinAPeriod : Prop :=
  ∀ s : State,
    (s.cfgMode = .duplex ∨ s.locked = false → flywheel params s = s) ∧
    (s.cfgMode = .single → s.locked = true → s.slotTimer.toNat < 287 →
      flywheel params s = { s with slotTimer := BitVec.ofNat 9 (s.slotTimer.toNat + 1) })

/-- R263, R264, R265 and the wrap of R266: at a slot period's end that does not unlock, the CACH at its start is compared with
`CURSLOT`; a second consecutive disagreement exchanges the two records whole and corrects `CURSLOT`; `NOSYNC` counts the
period if it had no match, saturating at 127; `SYNCP` and `SLOTTIMER` become 0 and `CURSLOT` alternates. Nothing else
changes and no event is appended.
Default parameters (R8; log entry 4). -/
def Obligations.FlywheelPeriodEndWraps : Prop :=
  ∀ (s : State) (disagree swap : Bool) (noSync : Nat), s.cfgMode = .single → s.locked = true →
    s.slotTimer.toNat = 287 → s.misMatch.toNat ≤ 1 →
    disagree = decide (tactSlot params s.buf ((s.ptr.toNat + 576 - 287) % 576) ≠ s.curSlot) →
    swap = (disagree && decide (s.misMatch.toNat = 1)) →
    noSync = (if s.syncP then 0 else min (s.noSync.toNat + 1) 127) →
    (noSync < 60 ∨ s.slot0.st ≠ .idle ∨ s.slot1.st ≠ .idle) →
    flywheel params s =
      { s with
        slot0 := if swap then s.slot1 else s.slot0
        slot1 := if swap then s.slot0 else s.slot1
        misMatch := if disagree && !swap then 1 else 0
        noSync := BitVec.ofNat 7 noSync
        syncP := false
        slotTimer := 0
        curSlot := if swap then s.curSlot else s.curSlot.other }

/-- Unlock (R266): at the 60th or later consecutive slot period without a match, with both slots IDLE, the flywheel, `BUF`,
`PAT` and both records are cleared; the cursor, the delay count, `BSSYNC`, the configuration and the events are kept.
Default parameters (R8; log entry 4). -/
def Obligations.FlywheelUnlocksAfterSilence : Prop :=
  ∀ s : State, s.cfgMode = .single → s.locked = true → s.slotTimer.toNat = 287 → s.syncP = false →
    59 ≤ s.noSync.toNat → s.slot0.st = .idle → s.slot1.st = .idle →
    flywheel params s =
      { s with
        buf := 0, pat := 0, locked := false, curSlot := .zero, slotTimer := 0, misMatch := 0, noSync := 0,
        syncP := false, slot0 := SlotRec.reset, slot1 := SlotRec.reset }

/-- R267: on an accepted bit with no match, a receiver that stays locked advances its timer modulo 288 and keeps `CURSLOT`
within a slot period; at its end `CURSLOT` alternates, unless that period's CACH is the second to disagree in a row, when the
correction and the wrap leave `CURSLOT` where it was (R264, R266).
R267 is an inference the spec marks as its own. Default parameters (R8; log entry 4). -/
def Obligations.LockedReceiverAlternatesSlots : Prop :=
  ∀ (s t : State) (b : Bool), s.delayCnt = 0 → s.cfgMode = .single → s.locked = true → s.slotTimer.toNat < 288 →
    s.misMatch.toNat ≤ 1 → syncFound params (storeBit b s) = none → exec (bitCommand b) s = .next t → t.locked = true →
    let secondDisagreement :=
      s.misMatch = 1 ∧ tactSlot params (storeBit b s).buf ((s.ptr.toNat + 576 - 287) % 576) ≠ s.curSlot
    t.slotTimer.toNat = (s.slotTimer.toNat + 1) % 288 ∧
    (s.slotTimer.toNat < 287 → t.curSlot = s.curSlot) ∧
    (s.slotTimer.toNat = 287 → ¬ secondDisagreement → t.curSlot = s.curSlot.other) ∧
    (s.slotTimer.toNat = 287 → secondDisagreement → t.curSlot = s.curSlot)
end

