-- ==== Sys2Proof/Laws/Bits.lean ====
section
/-! SUPPORT. Reading one bit of the bit strings the operations build, and the buffer positions. -/

namespace Sys2Proof.Machine

/-! ### `ofBits` -/

theorem bitsToNat_lt (f : Nat → Bool) (n : Nat) : bitsToNat f n < 2 ^ n := by
  induction n with
  | zero => simp [bitsToNat]
  | succ k ih => rw [bitsToNat, Nat.pow_succ]; split <;> omega

theorem testBit_bitsToNat (f : Nat → Bool) (n i : Nat) :
    (bitsToNat f n).testBit i = (decide (i < n) && f i) := by
  induction n with
  | zero => simp [bitsToNat]
  | succ k ih =>
    have hlt := bitsToNat_lt f k
    rw [bitsToNat]
    by_cases hk : f k = true
    · rw [if_pos hk, Nat.add_comm]
      rcases Nat.lt_trichotomy i k with h | h | h
      · rw [Nat.testBit_two_pow_add_gt h, ih]; simp [h, Nat.lt_succ_of_lt h]
      · subst h; rw [Nat.testBit_two_pow_add_eq, Nat.testBit_lt_two_pow hlt]; simp [hk]
      · have hb : 2 ^ k + bitsToNat f k < 2 ^ i := by
          calc 2 ^ k + bitsToNat f k < 2 ^ k + 2 ^ k := by omega
            _ = 2 ^ (k + 1) := by rw [Nat.pow_succ]; omega
            _ ≤ 2 ^ i := Nat.pow_le_pow_right (by decide) h
        rw [Nat.testBit_lt_two_pow hb]; simp; omega
    · rw [if_neg hk, Nat.add_zero, ih]
      rcases Nat.lt_trichotomy i k with h | h | h
      · simp [h, Nat.lt_succ_of_lt h]
      · subst h; simp at hk; simp [hk]
      · have h1 : ¬ i < k := by omega
        have h2 : ¬ i < k + 1 := by omega
        simp [h1, h2]

@[simp] theorem getLsbD_ofBits (n : Nat) (f : Nat → Bool) (i : Nat) :
    (ofBits n f).getLsbD i = (decide (i < n) && f i) := by
  rw [ofBits, BitVec.getLsbD_ofNat, testBit_bitsToNat]
  cases decide (i < n) <;> simp

@[simp] theorem getElem_ofBits {n : Nat} (f : Nat → Bool) {i : Nat} (h : i < n) : (ofBits n f)[i] = f i := by
  rw [← BitVec.getLsbD_eq_getElem, getLsbD_ofBits]; simp [h]

theorem ofBits_congr {n : Nat} {f g : Nat → Bool} (h : ∀ i, i < n → f i = g i) : ofBits n f = ofBits n g := by
  apply BitVec.eq_of_getLsbD_eq
  intro i hi
  rw [getLsbD_ofBits, getLsbD_ofBits, h i hi]

/-! ### Bytes and fields -/

@[simp] theorem getLsbD_bits (n : Nat) (bytes : List Byte) (i : Nat) :
    (bits n bytes).getLsbD i = (decide (i < n) && (bytes.getD (i / 8) 0).getLsbD (7 - i % 8)) := by
  rw [bits, getLsbD_ofBits]

@[simp] theorem bytesOf_length {n : Nat} (count : Nat) (v : BitVec n) : (bytesOf count v).length = count := by
  simp [bytesOf]

/-- Byte `i` of `bytesOf`: bit `j` of it is string bit `8 i + (7 - j)`. -/
theorem bytesOf_getD {n : Nat} (count : Nat) (v : BitVec n) {i : Nat} (h : i < count) :
    (bytesOf count v).getD i 0 = ofBits 8 fun j => v.getLsbD (8 * i + (7 - j)) := by
  simp [bytesOf, List.getD_eq_getElem?_getD, h]

@[simp] theorem getLsbD_fieldMsb {n : Nat} (v : BitVec n) (start len j : Nat) :
    (fieldMsb v start len).getLsbD j = (decide (j < len) && v.getLsbD (start + (len - 1 - j))) := by
  rw [fieldMsb, getLsbD_ofBits]

/-- Packing a bit string into bytes and reading it back gives the string (R10). -/
theorem bits_bytesOf {n : Nat} (count : Nat) (v : BitVec n) (h : n ≤ 8 * count) : bits n (bytesOf count v) = v := by
  apply BitVec.eq_of_getLsbD_eq
  intro i hi
  have h1 : i / 8 < count := by omega
  have h2 : 8 * (i / 8) + (7 - (7 - i % 8)) = i := by omega
  rw [getLsbD_bits, bytesOf_getD count v h1, getLsbD_ofBits, h2]
  have h3 : 7 - i % 8 < 8 := by omega
  simp [hi, h3]

/-! ### Single bits -/

@[simp] theorem getLsbD_flipBit {n : Nat} (v : BitVec n) (i j : Nat) :
    (flipBit v i).getLsbD j = (v.getLsbD j ^^ (decide (j < n) && decide (i = j))) := by
  rw [flipBit, BitVec.getLsbD_xor, BitVec.getLsbD_twoPow]
  by_cases h : i = j
  · simp [h]
  · simp [h]

@[simp] theorem getLsbD_writeBit {n : Nat} (v : BitVec n) (i : Nat) (b : Bool) (j : Nat) :
    (writeBit v i b).getLsbD j = if j = i ∧ j < n then b else v.getLsbD j := by
  unfold writeBit
  by_cases hb : b = true
  · simp only [hb, if_true, BitVec.getLsbD_or, BitVec.getLsbD_twoPow]
    by_cases hj : j < n
    · by_cases hij : i = j
      · simp [hij, hj]
      · have : ¬ j = i := fun h => hij h.symm
        simp [hij, this]
    · have h1 : v.getLsbD j = false := BitVec.getLsbD_of_ge v j (by omega)
      have h2 : ¬ (i < n ∧ i = j) := by omega
      simp only [hj, and_false, if_false, h1, Bool.false_or, Bool.and_eq_false_iff, decide_eq_false_iff_not]
      omega
  · simp only [Bool.not_eq_true] at hb
    simp only [hb, Bool.false_eq_true, if_false, BitVec.getLsbD_and, BitVec.getLsbD_not, BitVec.getLsbD_twoPow]
    by_cases hj : j < n
    · by_cases hij : i = j
      · simp [hij, hj]
      · have : ¬ j = i := fun h => hij h.symm
        simp [hij, hj, this]
    · have h1 : v.getLsbD j = false := BitVec.getLsbD_of_ge v j (by omega)
      simp [hj, h1]

/-! ### Positions -/

@[simp] theorem position_toNat (a : Nat) : (position a).toNat = a % 576 := by
  rw [position, BitVec.toNat_ofNat]; omega

theorem position_lt (a : Nat) : (position a).toNat < 576 := by rw [position_toNat]; omega

theorem backFrom_lt (p : BitVec 10) (k : Nat) : backFrom p k < 576 := by unfold backFrom; omega

/-- The circular distance of two positions is 0 exactly when they are the same modulo 576. -/
theorem cdist_self (a : BitVec 10) : cdist a a = 0 := by unfold cdist; omega

/-! ### The coded block of a burst -/

@[simp] theorem getLsbD_codedOfBurst (burst : Burst) (i : Nat) :
    (codedOfBurst burst).getLsbD i =
      (decide (i < 196) && if i < 98 then burst.getLsbD i else burst.getLsbD (166 + (i - 98))) := by
  rw [codedOfBurst, getLsbD_ofBits]

@[simp] theorem payloadOf_length (burst : Burst) : (payloadOf burst).length = 33 := bytesOf_length 33 burst

@[simp] theorem LcRecord.toBytes_length (record : LcRecord) : record.toBytes.length = 9 := rfl

end Sys2Proof.Machine
end

