-- ==== Sys2Proof/Laws/Bptc.lean ====
section
/-! SUPPORT. What the FEC block decoder's operations can do (40_fec_bptc.md). -/

namespace Sys2Proof.Machine

open Sys2Proof.Config (Params)

/-! ### Reading one bit -/

@[simp] theorem getLsbD_deinterleave (P : Params) (coded : Coded) (k : Nat) :
    (deinterleave P coded).getLsbD k = (decide (k < 196) && coded.getLsbD (P.deintMult * k % 196)) := by
  rw [deinterleave, getLsbD_ofBits]

@[simp] theorem getLsbD_rowWord (W : Work) (r c : Nat) :
    (rowWord W r).getLsbD c = (decide (c < 15) && W.getLsbD (cell r c)) := by
  rw [rowWord, getLsbD_ofBits]

@[simp] theorem getLsbD_colWord (W : Work) (c i : Nat) :
    (colWord W c).getLsbD i = (decide (i < 15) && if i < 2 then false else W.getLsbD (cell (i - 2) c)) := by
  rw [colWord, getLsbD_ofBits]

@[simp] theorem getLsbD_extract (P : Params) (W : Work) (i : Nat) :
    (extract P W).getLsbD i = (decide (i < 96) && W.getLsbD (infoIndex P i)) := by
  rw [extract, getLsbD_ofBits]

@[simp] theorem getLsbD_syndrome (P : Params) (w : BitVec 15) (j : Nat) :
    (syndrome P w).getLsbD j = (decide (j < 4) && syndromeBit P w j) := by
  rw [syndrome, getLsbD_ofBits]

/-- Two cells of the 13 × 15 matrix are the same bit of `W` only if they are the same cell (30_encoding.md R93). -/
theorem cell_inj {r c r' c' : Nat} (hc : c < 15) (hc' : c' < 15) (h : cell r c = cell r' c') : r = r' ∧ c = c' := by
  unfold cell at h; omega

theorem cell_pos (r c : Nat) : 1 ≤ cell r c := by unfold cell; omega

theorem cell_lt {r c : Nat} (hr : r < 13) (hc : c < 15) : cell r c < 196 := by unfold cell; omega

/-! ### The word decoder -/

/-- One check of a sum of words is the sum of the checks. -/
theorem syndromeBit_xor (P : Params) (v w : BitVec 15) (j : Nat) :
    syndromeBit P (v ^^^ w) j = (syndromeBit P v j ^^ syndromeBit P w j) := by
  unfold syndromeBit
  generalize P.h15.getD j [] = l
  rw [BitVec.getLsbD_xor]
  generalize v.getLsbD (11 + j) = a
  generalize w.getLsbD (11 + j) = b
  induction l generalizing a b with
  | nil => rfl
  | cons i l ih =>
    have hx : ((a ^^ b) ^^ (v ^^^ w).getLsbD i) = ((a ^^ v.getLsbD i) ^^ (b ^^ w.getLsbD i)) := by
      rw [BitVec.getLsbD_xor]
      cases a <;> cases b <;> cases v.getLsbD i <;> cases w.getLsbD i <;> rfl
    rw [List.foldl_cons, List.foldl_cons, List.foldl_cons, hx, ih]

/-- The syndrome of a sum of words is the sum of the syndromes (R136). -/
theorem syndrome_xor (P : Params) (v w : BitVec 15) : syndrome P (v ^^^ w) = syndrome P v ^^^ syndrome P w := by
  apply BitVec.eq_of_getLsbD_eq
  intro j hj
  rw [BitVec.getLsbD_xor, getLsbD_syndrome, getLsbD_syndrome, getLsbD_syndrome, syndromeBit_xor]
  simp [hj]

/-- The syndrome of a flipped word (R136). -/
theorem syndrome_flipBit (P : Params) (w : BitVec 15) (i : Nat) :
    syndrome P (flipBit w i) = syndrome P w ^^^ syndrome P (BitVec.twoPow 15 i) := syndrome_xor P w _

theorem h15Position_zero (P : Params) : h15Position P 0 = none := if_pos rfl

/-- A position of the table is one of the word's 15, and its single flip produces the syndrome (R136). -/
theorem h15Position_some {P : Params} {syn : BitVec 4} {pos : Nat} (h : h15Position P syn = some pos) :
    pos < 15 ∧ syndrome P (BitVec.twoPow 15 pos) = syn := by
  unfold h15Position at h
  split at h
  · cases h
  · exact ⟨by simpa using List.mem_of_find?_eq_some h, by simpa using List.find?_some h⟩

/-- What the word correction can do: nothing, or flip the position of the syndrome, which leaves syndrome 0 (R137). -/
theorem hcorr_cases (P : Params) (w : BitVec 15) :
    (h15Position P (syndrome P w) = none ∧ hcorr P w = (w, none)) ∨
    (∃ pos, h15Position P (syndrome P w) = some pos ∧ hcorr P w = (flipBit w pos, some pos) ∧ pos < 15 ∧
      syndrome P (flipBit w pos) = 0) := by
  unfold hcorr
  cases h : h15Position P (syndrome P w) with
  | none => exact .inl ⟨rfl, rfl⟩
  | some pos =>
    obtain ⟨h1, h2⟩ := h15Position_some h
    exact .inr ⟨pos, rfl, rfl, h1, by rw [syndrome_flipBit, h2, BitVec.xor_self]; rfl⟩

/-- A word of syndrome 0 is left alone (R137). -/
theorem hcorr_of_syndrome_zero {P : Params} {w : BitVec 15} (h : syndrome P w = 0) : hcorr P w = (w, none) := by
  rw [hcorr, h, h15Position_zero]

/-! ### Rows, columns, passes -/

/-- The row step on one row: nothing, or one cell of that row flipped and the flip flag set (R138). -/
theorem rowCorrect_cases (P : Params) (acc : Work × Bool) (r : Nat) :
    ((hcorr P (rowWord acc.1 r)).2 = none ∧ rowCorrect P acc r = acc) ∨
    (∃ pos < 15, (hcorr P (rowWord acc.1 r)).2 = some pos ∧
      rowCorrect P acc r = (flipBit acc.1 (cell r pos), true)) := by
  unfold rowCorrect
  obtain ⟨-, h⟩ | ⟨pos, -, h, hp, -⟩ := hcorr_cases P (rowWord acc.1 r)
  · rw [h]; exact .inl ⟨rfl, rfl⟩
  · rw [h]; exact .inr ⟨pos, hp, rfl, rfl⟩

/-- The column step on one column: nothing, or one of its 13 stored cells flipped and the flip flag set (R139). -/
theorem colCorrect_cases (P : Params) (acc : Work × Bool) (c : Nat) :
    (((hcorr P (colWord acc.1 c)).2 = none ∨ ∃ pos < 2, (hcorr P (colWord acc.1 c)).2 = some pos) ∧
      colCorrect P acc c = acc) ∨
    (∃ pos < 15, 2 ≤ pos ∧ (hcorr P (colWord acc.1 c)).2 = some pos ∧
      colCorrect P acc c = (flipBit acc.1 (cell (pos - 2) c), true)) := by
  unfold colCorrect
  obtain ⟨-, h⟩ | ⟨pos, -, h, hp, -⟩ := hcorr_cases P (colWord acc.1 c)
  · rw [h]; exact .inl ⟨.inl rfl, rfl⟩
  · rw [h]
    by_cases h2 : 2 ≤ pos
    · exact .inr ⟨pos, hp, h2, rfl, if_pos h2⟩
    · exact .inl ⟨.inr ⟨pos, by omega, rfl⟩, if_neg h2⟩

/-- The row step never writes the reserved bit (R144). -/
theorem rowCorrect_reserved (P : Params) (acc : Work × Bool) (r : Nat) :
    (rowCorrect P acc r).1.getLsbD 0 = acc.1.getLsbD 0 := by
  obtain ⟨-, h⟩ | ⟨pos, -, -, h⟩ := rowCorrect_cases P acc r <;> rw [h]
  have : cell r pos ≠ 0 := by have := cell_pos r pos; omega
  rw [getLsbD_flipBit]; simp [this]

/-- The column step never writes the reserved bit (R144). -/
theorem colCorrect_reserved (P : Params) (acc : Work × Bool) (c : Nat) :
    (colCorrect P acc c).1.getLsbD 0 = acc.1.getLsbD 0 := by
  obtain ⟨-, h⟩ | ⟨pos, -, -, -, h⟩ := colCorrect_cases P acc c <;> rw [h]
  have : cell (pos - 2) c ≠ 0 := by have := cell_pos (pos - 2) c; omega
  rw [getLsbD_flipBit]; simp [this]

/-- The pass loop: at the pass limit it stops; else it makes one pass and goes on exactly if that pass flipped (R140). -/
theorem passLoop_succ (P : Params) (n : Nat) (W : Work) :
    ((pass P W).2 = true ∧ passLoop P (n + 1) W = passLoop P n (pass P W).1) ∨
    ((pass P W).2 = false ∧ passLoop P (n + 1) W = (pass P W).1) := by
  rw [passLoop]
  cases h : (pass P W).2
  · exact .inr ⟨rfl, by simp⟩
  · exact .inl ⟨rfl, by simp⟩

@[simp] theorem bptc_length (P : Params) (coded : Coded) : (bptc P coded).length = 12 := bytesOf_length 12 _

end Sys2Proof.Machine
end

