-- ==== Sys2Proof/Laws/State.lean ====
section
/-! SUPPORT. One lemma per field per update of the state, so that no proof unfolds a record update. -/

namespace Sys2Proof.Machine

open Sys2Proof.Config (Params SyncMatch)

/-! ### Reading a slot record -/

@[simp] theorem SlotId.other_other (k : SlotId) : k.other.other = k := by cases k <;> rfl

@[simp] theorem SlotId.other_ne (k : SlotId) : k.other ≠ k := by cases k <;> decide

@[simp] theorem State.slot_zero (s : State) : s.slot .zero = s.slot0 := rfl

@[simp] theorem State.slot_one (s : State) : s.slot .one = s.slot1 := rfl

theorem State.slot_setSlot (s : State) (k j : SlotId) (r : SlotRec) :
    (s.setSlot k r).slot j = if j = k then r else s.slot j := by
  cases k <;> cases j <;> rfl

@[simp] theorem State.slot_setSlot_self (s : State) (k : SlotId) (r : SlotRec) : (s.setSlot k r).slot k = r := by
  cases k <;> rfl

@[simp] theorem State.slot_setSlot_other (s : State) (k : SlotId) (r : SlotRec) :
    (s.setSlot k r).slot k.other = s.slot k.other := by
  cases k <;> rfl

@[simp] theorem State.slot_modifySlot_self (s : State) (k : SlotId) (f : SlotRec → SlotRec) :
    (s.modifySlot k f).slot k = f (s.slot k) := by
  cases k <;> rfl

@[simp] theorem State.slot_modifySlot_other (s : State) (k : SlotId) (f : SlotRec → SlotRec) :
    (s.modifySlot k f).slot k.other = s.slot k.other := by
  cases k <;> rfl

@[simp] theorem State.slot_resetSlot_self (s : State) (k : SlotId) : (s.resetSlot k).slot k = SlotRec.reset := by
  cases k <;> rfl

@[simp] theorem State.slot_resetSlot_other (s : State) (k : SlotId) :
    (s.resetSlot k).slot k.other = s.slot k.other := by
  cases k <;> rfl

/-- The other record, read by the number of the one written. -/
theorem SlotId.eq_or_other (k j : SlotId) : j = k ∨ j = k.other := by
  cases k <;> cases j <;> decide

@[simp] theorem State.slot0_setSlot_zero (s : State) (r : SlotRec) : (s.setSlot .zero r).slot0 = r := rfl

@[simp] theorem State.slot1_setSlot_zero (s : State) (r : SlotRec) : (s.setSlot .zero r).slot1 = s.slot1 := rfl

@[simp] theorem State.slot0_setSlot_one (s : State) (r : SlotRec) : (s.setSlot .one r).slot0 = s.slot0 := rfl

@[simp] theorem State.slot1_setSlot_one (s : State) (r : SlotRec) : (s.setSlot .one r).slot1 = r := rfl

@[simp] theorem State.modifySlot_zero (s : State) (f : SlotRec → SlotRec) :
    s.modifySlot .zero f = s.setSlot .zero (f s.slot0) := rfl

@[simp] theorem State.modifySlot_one (s : State) (f : SlotRec → SlotRec) :
    s.modifySlot .one f = s.setSlot .one (f s.slot1) := rfl

/-- The record a match writes (R225). -/
@[simp] theorem slot_matchWrites_self (k : SlotId) (m : SyncMatch) (s : State) :
    (matchWrites k m s).slot k =
      { s.slot k with
        endPos := some (position (s.ptr.toNat + 108))
        expSync := some s.ptr
        seen := true
        kind := m.cls
        inv := m.inverted } := by
  cases k <;> rfl

@[simp] theorem slot_matchWrites_other (k : SlotId) (m : SyncMatch) (s : State) :
    (matchWrites k m s).slot k.other = s.slot k.other := by
  cases k <;> rfl

@[simp] theorem slot0_matchWrites_one (m : SyncMatch) (s : State) : (matchWrites .one m s).slot0 = s.slot0 := rfl

@[simp] theorem slot1_matchWrites_zero (m : SyncMatch) (s : State) : (matchWrites .zero m s).slot1 = s.slot1 := rfl

@[simp] theorem slot0_matchWrites_zero (m : SyncMatch) (s : State) :
    (matchWrites .zero m s).slot0 =
      { s.slot0 with
        endPos := some (position (s.ptr.toNat + 108))
        expSync := some s.ptr
        seen := true
        kind := m.cls
        inv := m.inverted } := rfl

@[simp] theorem slot1_matchWrites_one (m : SyncMatch) (s : State) :
    (matchWrites .one m s).slot1 =
      { s.slot1 with
        endPos := some (position (s.ptr.toNat + 108))
        expSync := some s.ptr
        seen := true
        kind := m.cls
        inv := m.inverted } := rfl

/-! ### `setSlot` -/

@[simp] theorem State.setSlot_cfgCc (s : State) (k : SlotId) (r : SlotRec) :
    (s.setSlot k r).cfgCc = s.cfgCc := by cases k <;> rfl
@[simp] theorem State.setSlot_cfgDelay (s : State) (k : SlotId) (r : SlotRec) :
    (s.setSlot k r).cfgDelay = s.cfgDelay := by cases k <;> rfl
@[simp] theorem State.setSlot_cfgMode (s : State) (k : SlotId) (r : SlotRec) :
    (s.setSlot k r).cfgMode = s.cfgMode := by cases k <;> rfl
@[simp] theorem State.setSlot_buf (s : State) (k : SlotId) (r : SlotRec) :
    (s.setSlot k r).buf = s.buf := by cases k <;> rfl
@[simp] theorem State.setSlot_ptr (s : State) (k : SlotId) (r : SlotRec) :
    (s.setSlot k r).ptr = s.ptr := by cases k <;> rfl
@[simp] theorem State.setSlot_pat (s : State) (k : SlotId) (r : SlotRec) :
    (s.setSlot k r).pat = s.pat := by cases k <;> rfl
@[simp] theorem State.setSlot_delayCnt (s : State) (k : SlotId) (r : SlotRec) :
    (s.setSlot k r).delayCnt = s.delayCnt := by cases k <;> rfl
@[simp] theorem State.setSlot_locked (s : State) (k : SlotId) (r : SlotRec) :
    (s.setSlot k r).locked = s.locked := by cases k <;> rfl
@[simp] theorem State.setSlot_curSlot (s : State) (k : SlotId) (r : SlotRec) :
    (s.setSlot k r).curSlot = s.curSlot := by cases k <;> rfl
@[simp] theorem State.setSlot_slotTimer (s : State) (k : SlotId) (r : SlotRec) :
    (s.setSlot k r).slotTimer = s.slotTimer := by cases k <;> rfl
@[simp] theorem State.setSlot_misMatch (s : State) (k : SlotId) (r : SlotRec) :
    (s.setSlot k r).misMatch = s.misMatch := by cases k <;> rfl
@[simp] theorem State.setSlot_noSync (s : State) (k : SlotId) (r : SlotRec) :
    (s.setSlot k r).noSync = s.noSync := by cases k <;> rfl
@[simp] theorem State.setSlot_syncP (s : State) (k : SlotId) (r : SlotRec) :
    (s.setSlot k r).syncP = s.syncP := by cases k <;> rfl
@[simp] theorem State.setSlot_bsSync (s : State) (k : SlotId) (r : SlotRec) :
    (s.setSlot k r).bsSync = s.bsSync := by cases k <;> rfl
@[simp] theorem State.setSlot_events (s : State) (k : SlotId) (r : SlotRec) :
    (s.setSlot k r).events = s.events := by cases k <;> rfl
@[simp] theorem State.setSlot_responses (s : State) (k : SlotId) (r : SlotRec) :
    (s.setSlot k r).responses = s.responses := by cases k <;> rfl
@[simp] theorem State.setSlot_input (s : State) (k : SlotId) (r : SlotRec) :
    (s.setSlot k r).input = s.input := by cases k <;> rfl

/-! ### `modifySlot` -/

@[simp] theorem State.modifySlot_cfgCc (s : State) (k : SlotId) (f : SlotRec → SlotRec) :
    (s.modifySlot k f).cfgCc = s.cfgCc := by cases k <;> rfl
@[simp] theorem State.modifySlot_cfgDelay (s : State) (k : SlotId) (f : SlotRec → SlotRec) :
    (s.modifySlot k f).cfgDelay = s.cfgDelay := by cases k <;> rfl
@[simp] theorem State.modifySlot_cfgMode (s : State) (k : SlotId) (f : SlotRec → SlotRec) :
    (s.modifySlot k f).cfgMode = s.cfgMode := by cases k <;> rfl
@[simp] theorem State.modifySlot_buf (s : State) (k : SlotId) (f : SlotRec → SlotRec) :
    (s.modifySlot k f).buf = s.buf := by cases k <;> rfl
@[simp] theorem State.modifySlot_ptr (s : State) (k : SlotId) (f : SlotRec → SlotRec) :
    (s.modifySlot k f).ptr = s.ptr := by cases k <;> rfl
@[simp] theorem State.modifySlot_pat (s : State) (k : SlotId) (f : SlotRec → SlotRec) :
    (s.modifySlot k f).pat = s.pat := by cases k <;> rfl
@[simp] theorem State.modifySlot_delayCnt (s : State) (k : SlotId) (f : SlotRec → SlotRec) :
    (s.modifySlot k f).delayCnt = s.delayCnt := by cases k <;> rfl
@[simp] theorem State.modifySlot_locked (s : State) (k : SlotId) (f : SlotRec → SlotRec) :
    (s.modifySlot k f).locked = s.locked := by cases k <;> rfl
@[simp] theorem State.modifySlot_curSlot (s : State) (k : SlotId) (f : SlotRec → SlotRec) :
    (s.modifySlot k f).curSlot = s.curSlot := by cases k <;> rfl
@[simp] theorem State.modifySlot_slotTimer (s : State) (k : SlotId) (f : SlotRec → SlotRec) :
    (s.modifySlot k f).slotTimer = s.slotTimer := by cases k <;> rfl
@[simp] theorem State.modifySlot_misMatch (s : State) (k : SlotId) (f : SlotRec → SlotRec) :
    (s.modifySlot k f).misMatch = s.misMatch := by cases k <;> rfl
@[simp] theorem State.modifySlot_noSync (s : State) (k : SlotId) (f : SlotRec → SlotRec) :
    (s.modifySlot k f).noSync = s.noSync := by cases k <;> rfl
@[simp] theorem State.modifySlot_syncP (s : State) (k : SlotId) (f : SlotRec → SlotRec) :
    (s.modifySlot k f).syncP = s.syncP := by cases k <;> rfl
@[simp] theorem State.modifySlot_bsSync (s : State) (k : SlotId) (f : SlotRec → SlotRec) :
    (s.modifySlot k f).bsSync = s.bsSync := by cases k <;> rfl
@[simp] theorem State.modifySlot_events (s : State) (k : SlotId) (f : SlotRec → SlotRec) :
    (s.modifySlot k f).events = s.events := by cases k <;> rfl
@[simp] theorem State.modifySlot_responses (s : State) (k : SlotId) (f : SlotRec → SlotRec) :
    (s.modifySlot k f).responses = s.responses := by cases k <;> rfl
@[simp] theorem State.modifySlot_input (s : State) (k : SlotId) (f : SlotRec → SlotRec) :
    (s.modifySlot k f).input = s.input := by cases k <;> rfl

/-! ### `resetSlot` -/

@[simp] theorem State.resetSlot_cfgCc (s : State) (k : SlotId) : (s.resetSlot k).cfgCc = s.cfgCc := by cases k <;> rfl
@[simp] theorem State.resetSlot_cfgDelay (s : State) (k : SlotId) :
    (s.resetSlot k).cfgDelay = s.cfgDelay := by cases k <;> rfl
@[simp] theorem State.resetSlot_cfgMode (s : State) (k : SlotId) :
    (s.resetSlot k).cfgMode = s.cfgMode := by cases k <;> rfl
@[simp] theorem State.resetSlot_buf (s : State) (k : SlotId) : (s.resetSlot k).buf = s.buf := by cases k <;> rfl
@[simp] theorem State.resetSlot_ptr (s : State) (k : SlotId) : (s.resetSlot k).ptr = s.ptr := by cases k <;> rfl
@[simp] theorem State.resetSlot_pat (s : State) (k : SlotId) : (s.resetSlot k).pat = s.pat := by cases k <;> rfl
@[simp] theorem State.resetSlot_delayCnt (s : State) (k : SlotId) :
    (s.resetSlot k).delayCnt = s.delayCnt := by cases k <;> rfl
@[simp] theorem State.resetSlot_locked (s : State) (k : SlotId) :
    (s.resetSlot k).locked = s.locked := by cases k <;> rfl
@[simp] theorem State.resetSlot_curSlot (s : State) (k : SlotId) :
    (s.resetSlot k).curSlot = s.curSlot := by cases k <;> rfl
@[simp] theorem State.resetSlot_slotTimer (s : State) (k : SlotId) :
    (s.resetSlot k).slotTimer = s.slotTimer := by cases k <;> rfl
@[simp] theorem State.resetSlot_misMatch (s : State) (k : SlotId) :
    (s.resetSlot k).misMatch = s.misMatch := by cases k <;> rfl
@[simp] theorem State.resetSlot_noSync (s : State) (k : SlotId) :
    (s.resetSlot k).noSync = s.noSync := by cases k <;> rfl
@[simp] theorem State.resetSlot_syncP (s : State) (k : SlotId) : (s.resetSlot k).syncP = s.syncP := by cases k <;> rfl
@[simp] theorem State.resetSlot_bsSync (s : State) (k : SlotId) :
    (s.resetSlot k).bsSync = s.bsSync := by cases k <;> rfl
@[simp] theorem State.resetSlot_events (s : State) (k : SlotId) :
    (s.resetSlot k).events = s.events := by cases k <;> rfl
@[simp] theorem State.resetSlot_responses (s : State) (k : SlotId) :
    (s.resetSlot k).responses = s.responses := by cases k <;> rfl
@[simp] theorem State.resetSlot_input (s : State) (k : SlotId) : (s.resetSlot k).input = s.input := by cases k <;> rfl

/-! ### `respondOk` -/

@[simp] theorem State.respondOk_cfgCc (s : State) (payload : List Byte) : (s.respondOk payload).cfgCc = s.cfgCc := rfl
@[simp] theorem State.respondOk_cfgDelay (s : State) (payload : List Byte) :
    (s.respondOk payload).cfgDelay = s.cfgDelay := rfl
@[simp] theorem State.respondOk_cfgMode (s : State) (payload : List Byte) :
    (s.respondOk payload).cfgMode = s.cfgMode := rfl
@[simp] theorem State.respondOk_buf (s : State) (payload : List Byte) : (s.respondOk payload).buf = s.buf := rfl
@[simp] theorem State.respondOk_ptr (s : State) (payload : List Byte) : (s.respondOk payload).ptr = s.ptr := rfl
@[simp] theorem State.respondOk_pat (s : State) (payload : List Byte) : (s.respondOk payload).pat = s.pat := rfl
@[simp] theorem State.respondOk_delayCnt (s : State) (payload : List Byte) :
    (s.respondOk payload).delayCnt = s.delayCnt := rfl
@[simp] theorem State.respondOk_locked (s : State) (payload : List Byte) :
    (s.respondOk payload).locked = s.locked := rfl
@[simp] theorem State.respondOk_curSlot (s : State) (payload : List Byte) :
    (s.respondOk payload).curSlot = s.curSlot := rfl
@[simp] theorem State.respondOk_slotTimer (s : State) (payload : List Byte) :
    (s.respondOk payload).slotTimer = s.slotTimer := rfl
@[simp] theorem State.respondOk_misMatch (s : State) (payload : List Byte) :
    (s.respondOk payload).misMatch = s.misMatch := rfl
@[simp] theorem State.respondOk_noSync (s : State) (payload : List Byte) :
    (s.respondOk payload).noSync = s.noSync := rfl
@[simp] theorem State.respondOk_syncP (s : State) (payload : List Byte) : (s.respondOk payload).syncP = s.syncP := rfl
@[simp] theorem State.respondOk_slot0 (s : State) (payload : List Byte) : (s.respondOk payload).slot0 = s.slot0 := rfl
@[simp] theorem State.respondOk_slot1 (s : State) (payload : List Byte) : (s.respondOk payload).slot1 = s.slot1 := rfl
@[simp] theorem State.respondOk_bsSync (s : State) (payload : List Byte) :
    (s.respondOk payload).bsSync = s.bsSync := rfl
@[simp] theorem State.respondOk_events (s : State) (payload : List Byte) :
    (s.respondOk payload).events = s.events := rfl
@[simp] theorem State.respondOk_responses (s : State) (payload : List Byte) :
    (s.respondOk payload).responses = s.responses ++ [{ status := 0x00, payload := payload }] := rfl
@[simp] theorem State.respondOk_input (s : State) (payload : List Byte) : (s.respondOk payload).input = s.input := rfl

/-! ### `respondIllegal` -/

@[simp] theorem State.respondIllegal_cfgCc (s : State) : (s.respondIllegal).cfgCc = s.cfgCc := rfl
@[simp] theorem State.respondIllegal_cfgDelay (s : State) : (s.respondIllegal).cfgDelay = s.cfgDelay := rfl
@[simp] theorem State.respondIllegal_cfgMode (s : State) : (s.respondIllegal).cfgMode = s.cfgMode := rfl
@[simp] theorem State.respondIllegal_buf (s : State) : (s.respondIllegal).buf = s.buf := rfl
@[simp] theorem State.respondIllegal_ptr (s : State) : (s.respondIllegal).ptr = s.ptr := rfl
@[simp] theorem State.respondIllegal_pat (s : State) : (s.respondIllegal).pat = s.pat := rfl
@[simp] theorem State.respondIllegal_delayCnt (s : State) : (s.respondIllegal).delayCnt = s.delayCnt := rfl
@[simp] theorem State.respondIllegal_locked (s : State) : (s.respondIllegal).locked = s.locked := rfl
@[simp] theorem State.respondIllegal_curSlot (s : State) : (s.respondIllegal).curSlot = s.curSlot := rfl
@[simp] theorem State.respondIllegal_slotTimer (s : State) : (s.respondIllegal).slotTimer = s.slotTimer := rfl
@[simp] theorem State.respondIllegal_misMatch (s : State) : (s.respondIllegal).misMatch = s.misMatch := rfl
@[simp] theorem State.respondIllegal_noSync (s : State) : (s.respondIllegal).noSync = s.noSync := rfl
@[simp] theorem State.respondIllegal_syncP (s : State) : (s.respondIllegal).syncP = s.syncP := rfl
@[simp] theorem State.respondIllegal_slot0 (s : State) : (s.respondIllegal).slot0 = s.slot0 := rfl
@[simp] theorem State.respondIllegal_slot1 (s : State) : (s.respondIllegal).slot1 = s.slot1 := rfl
@[simp] theorem State.respondIllegal_bsSync (s : State) : (s.respondIllegal).bsSync = s.bsSync := rfl
@[simp] theorem State.respondIllegal_events (s : State) : (s.respondIllegal).events = s.events := rfl
@[simp] theorem State.respondIllegal_responses (s : State) :
    (s.respondIllegal).responses = s.responses ++ [{ status := 0xFF, payload := [] }] := rfl
@[simp] theorem State.respondIllegal_input (s : State) : (s.respondIllegal).input = s.input := rfl

/-! ### `emit` -/

@[simp] theorem State.emit_cfgCc (s : State) (e : Event) : (s.emit e).cfgCc = s.cfgCc := rfl
@[simp] theorem State.emit_cfgDelay (s : State) (e : Event) : (s.emit e).cfgDelay = s.cfgDelay := rfl
@[simp] theorem State.emit_cfgMode (s : State) (e : Event) : (s.emit e).cfgMode = s.cfgMode := rfl
@[simp] theorem State.emit_buf (s : State) (e : Event) : (s.emit e).buf = s.buf := rfl
@[simp] theorem State.emit_ptr (s : State) (e : Event) : (s.emit e).ptr = s.ptr := rfl
@[simp] theorem State.emit_pat (s : State) (e : Event) : (s.emit e).pat = s.pat := rfl
@[simp] theorem State.emit_delayCnt (s : State) (e : Event) : (s.emit e).delayCnt = s.delayCnt := rfl
@[simp] theorem State.emit_locked (s : State) (e : Event) : (s.emit e).locked = s.locked := rfl
@[simp] theorem State.emit_curSlot (s : State) (e : Event) : (s.emit e).curSlot = s.curSlot := rfl
@[simp] theorem State.emit_slotTimer (s : State) (e : Event) : (s.emit e).slotTimer = s.slotTimer := rfl
@[simp] theorem State.emit_misMatch (s : State) (e : Event) : (s.emit e).misMatch = s.misMatch := rfl
@[simp] theorem State.emit_noSync (s : State) (e : Event) : (s.emit e).noSync = s.noSync := rfl
@[simp] theorem State.emit_syncP (s : State) (e : Event) : (s.emit e).syncP = s.syncP := rfl
@[simp] theorem State.emit_slot0 (s : State) (e : Event) : (s.emit e).slot0 = s.slot0 := rfl
@[simp] theorem State.emit_slot1 (s : State) (e : Event) : (s.emit e).slot1 = s.slot1 := rfl
@[simp] theorem State.emit_bsSync (s : State) (e : Event) : (s.emit e).bsSync = s.bsSync := rfl
@[simp] theorem State.emit_events (s : State) (e : Event) : (s.emit e).events = s.events ++ [e] := rfl
@[simp] theorem State.emit_responses (s : State) (e : Event) : (s.emit e).responses = s.responses := rfl
@[simp] theorem State.emit_input (s : State) (e : Event) : (s.emit e).input = s.input := rfl

/-! ### `clearBits` -/

@[simp] theorem State.clearBits_cfgCc (s : State) : (s.clearBits).cfgCc = s.cfgCc := rfl
@[simp] theorem State.clearBits_cfgDelay (s : State) : (s.clearBits).cfgDelay = s.cfgDelay := rfl
@[simp] theorem State.clearBits_cfgMode (s : State) : (s.clearBits).cfgMode = s.cfgMode := rfl
@[simp] theorem State.clearBits_buf (s : State) : (s.clearBits).buf = 0 := rfl
@[simp] theorem State.clearBits_ptr (s : State) : (s.clearBits).ptr = s.ptr := rfl
@[simp] theorem State.clearBits_pat (s : State) : (s.clearBits).pat = 0 := rfl
@[simp] theorem State.clearBits_delayCnt (s : State) : (s.clearBits).delayCnt = s.delayCnt := rfl
@[simp] theorem State.clearBits_locked (s : State) : (s.clearBits).locked = s.locked := rfl
@[simp] theorem State.clearBits_curSlot (s : State) : (s.clearBits).curSlot = s.curSlot := rfl
@[simp] theorem State.clearBits_slotTimer (s : State) : (s.clearBits).slotTimer = s.slotTimer := rfl
@[simp] theorem State.clearBits_misMatch (s : State) : (s.clearBits).misMatch = s.misMatch := rfl
@[simp] theorem State.clearBits_noSync (s : State) : (s.clearBits).noSync = s.noSync := rfl
@[simp] theorem State.clearBits_syncP (s : State) : (s.clearBits).syncP = s.syncP := rfl
@[simp] theorem State.clearBits_slot0 (s : State) : (s.clearBits).slot0 = s.slot0 := rfl
@[simp] theorem State.clearBits_slot1 (s : State) : (s.clearBits).slot1 = s.slot1 := rfl
@[simp] theorem State.clearBits_bsSync (s : State) : (s.clearBits).bsSync = s.bsSync := rfl
@[simp] theorem State.clearBits_events (s : State) : (s.clearBits).events = s.events := rfl
@[simp] theorem State.clearBits_responses (s : State) : (s.clearBits).responses = s.responses := rfl
@[simp] theorem State.clearBits_input (s : State) : (s.clearBits).input = s.input := rfl

/-! ### `receiveReset` -/

@[simp] theorem State.receiveReset_cfgCc (s : State) : (s.receiveReset).cfgCc = s.cfgCc := rfl
@[simp] theorem State.receiveReset_cfgDelay (s : State) : (s.receiveReset).cfgDelay = s.cfgDelay := rfl
@[simp] theorem State.receiveReset_cfgMode (s : State) : (s.receiveReset).cfgMode = s.cfgMode := rfl
@[simp] theorem State.receiveReset_buf (s : State) : (s.receiveReset).buf = 0 := rfl
@[simp] theorem State.receiveReset_ptr (s : State) : (s.receiveReset).ptr = 0 := rfl
@[simp] theorem State.receiveReset_pat (s : State) : (s.receiveReset).pat = 0 := rfl
@[simp] theorem State.receiveReset_delayCnt (s : State) : (s.receiveReset).delayCnt = s.cfgDelay := rfl
@[simp] theorem State.receiveReset_locked (s : State) : (s.receiveReset).locked = false := rfl
@[simp] theorem State.receiveReset_curSlot (s : State) : (s.receiveReset).curSlot = .zero := rfl
@[simp] theorem State.receiveReset_slotTimer (s : State) : (s.receiveReset).slotTimer = 0 := rfl
@[simp] theorem State.receiveReset_misMatch (s : State) : (s.receiveReset).misMatch = 0 := rfl
@[simp] theorem State.receiveReset_noSync (s : State) : (s.receiveReset).noSync = 0 := rfl
@[simp] theorem State.receiveReset_syncP (s : State) : (s.receiveReset).syncP = false := rfl
@[simp] theorem State.receiveReset_slot0 (s : State) : (s.receiveReset).slot0 = SlotRec.reset := rfl
@[simp] theorem State.receiveReset_slot1 (s : State) : (s.receiveReset).slot1 = SlotRec.reset := rfl
@[simp] theorem State.receiveReset_bsSync (s : State) : (s.receiveReset).bsSync = false := rfl
@[simp] theorem State.receiveReset_events (s : State) : (s.receiveReset).events = s.events := rfl
@[simp] theorem State.receiveReset_responses (s : State) : (s.receiveReset).responses = s.responses := rfl
@[simp] theorem State.receiveReset_input (s : State) : (s.receiveReset).input = s.input := rfl

/-! ### `setBsSync` -/

@[simp] theorem State.setBsSync_cfgCc (s : State) : (s.setBsSync).cfgCc = s.cfgCc := rfl
@[simp] theorem State.setBsSync_cfgDelay (s : State) : (s.setBsSync).cfgDelay = s.cfgDelay := rfl
@[simp] theorem State.setBsSync_cfgMode (s : State) : (s.setBsSync).cfgMode = s.cfgMode := rfl
@[simp] theorem State.setBsSync_buf (s : State) : (s.setBsSync).buf = s.buf := rfl
@[simp] theorem State.setBsSync_ptr (s : State) : (s.setBsSync).ptr = s.ptr := rfl
@[simp] theorem State.setBsSync_pat (s : State) : (s.setBsSync).pat = s.pat := rfl
@[simp] theorem State.setBsSync_delayCnt (s : State) : (s.setBsSync).delayCnt = s.delayCnt := rfl
@[simp] theorem State.setBsSync_locked (s : State) : (s.setBsSync).locked = s.locked := rfl
@[simp] theorem State.setBsSync_curSlot (s : State) : (s.setBsSync).curSlot = s.curSlot := rfl
@[simp] theorem State.setBsSync_slotTimer (s : State) : (s.setBsSync).slotTimer = s.slotTimer := rfl
@[simp] theorem State.setBsSync_misMatch (s : State) : (s.setBsSync).misMatch = s.misMatch := rfl
@[simp] theorem State.setBsSync_noSync (s : State) : (s.setBsSync).noSync = s.noSync := rfl
@[simp] theorem State.setBsSync_syncP (s : State) : (s.setBsSync).syncP = s.syncP := rfl
@[simp] theorem State.setBsSync_slot0 (s : State) : (s.setBsSync).slot0 = s.slot0 := rfl
@[simp] theorem State.setBsSync_slot1 (s : State) : (s.setBsSync).slot1 = s.slot1 := rfl
@[simp] theorem State.setBsSync_bsSync (s : State) : (s.setBsSync).bsSync = true := rfl
@[simp] theorem State.setBsSync_events (s : State) : (s.setBsSync).events = s.events := rfl
@[simp] theorem State.setBsSync_responses (s : State) : (s.setBsSync).responses = s.responses := rfl
@[simp] theorem State.setBsSync_input (s : State) : (s.setBsSync).input = s.input := rfl

/-! ### `clearBsSync` -/

@[simp] theorem State.clearBsSync_cfgCc (s : State) : (s.clearBsSync).cfgCc = s.cfgCc := rfl
@[simp] theorem State.clearBsSync_cfgDelay (s : State) : (s.clearBsSync).cfgDelay = s.cfgDelay := rfl
@[simp] theorem State.clearBsSync_cfgMode (s : State) : (s.clearBsSync).cfgMode = s.cfgMode := rfl
@[simp] theorem State.clearBsSync_buf (s : State) : (s.clearBsSync).buf = s.buf := rfl
@[simp] theorem State.clearBsSync_ptr (s : State) : (s.clearBsSync).ptr = s.ptr := rfl
@[simp] theorem State.clearBsSync_pat (s : State) : (s.clearBsSync).pat = s.pat := rfl
@[simp] theorem State.clearBsSync_delayCnt (s : State) : (s.clearBsSync).delayCnt = s.delayCnt := rfl
@[simp] theorem State.clearBsSync_locked (s : State) : (s.clearBsSync).locked = s.locked := rfl
@[simp] theorem State.clearBsSync_curSlot (s : State) : (s.clearBsSync).curSlot = s.curSlot := rfl
@[simp] theorem State.clearBsSync_slotTimer (s : State) : (s.clearBsSync).slotTimer = s.slotTimer := rfl
@[simp] theorem State.clearBsSync_misMatch (s : State) : (s.clearBsSync).misMatch = s.misMatch := rfl
@[simp] theorem State.clearBsSync_noSync (s : State) : (s.clearBsSync).noSync = s.noSync := rfl
@[simp] theorem State.clearBsSync_syncP (s : State) : (s.clearBsSync).syncP = s.syncP := rfl
@[simp] theorem State.clearBsSync_slot0 (s : State) : (s.clearBsSync).slot0 = s.slot0 := rfl
@[simp] theorem State.clearBsSync_slot1 (s : State) : (s.clearBsSync).slot1 = s.slot1 := rfl
@[simp] theorem State.clearBsSync_bsSync (s : State) : (s.clearBsSync).bsSync = false := rfl
@[simp] theorem State.clearBsSync_events (s : State) : (s.clearBsSync).events = s.events := rfl
@[simp] theorem State.clearBsSync_responses (s : State) : (s.clearBsSync).responses = s.responses := rfl
@[simp] theorem State.clearBsSync_input (s : State) : (s.clearBsSync).input = s.input := rfl

/-! ### `configure` -/

@[simp] theorem State.configure_cfgCc (s : State) (mode : BitVec 1) (cc : BitVec 4) (delay : Byte) :
    (s.configure mode cc delay).cfgCc = cc := rfl
@[simp] theorem State.configure_cfgDelay (s : State) (mode : BitVec 1) (cc : BitVec 4) (delay : Byte) :
    (s.configure mode cc delay).cfgDelay = delay := rfl
@[simp] theorem State.configure_cfgMode (s : State) (mode : BitVec 1) (cc : BitVec 4) (delay : Byte) :
    (s.configure mode cc delay).cfgMode = Mode.ofBit mode := rfl
@[simp] theorem State.configure_buf (s : State) (mode : BitVec 1) (cc : BitVec 4) (delay : Byte) :
    (s.configure mode cc delay).buf = s.buf := rfl
@[simp] theorem State.configure_ptr (s : State) (mode : BitVec 1) (cc : BitVec 4) (delay : Byte) :
    (s.configure mode cc delay).ptr = s.ptr := rfl
@[simp] theorem State.configure_pat (s : State) (mode : BitVec 1) (cc : BitVec 4) (delay : Byte) :
    (s.configure mode cc delay).pat = s.pat := rfl
@[simp] theorem State.configure_delayCnt (s : State) (mode : BitVec 1) (cc : BitVec 4) (delay : Byte) :
    (s.configure mode cc delay).delayCnt = s.delayCnt := rfl
@[simp] theorem State.configure_locked (s : State) (mode : BitVec 1) (cc : BitVec 4) (delay : Byte) :
    (s.configure mode cc delay).locked = s.locked := rfl
@[simp] theorem State.configure_curSlot (s : State) (mode : BitVec 1) (cc : BitVec 4) (delay : Byte) :
    (s.configure mode cc delay).curSlot = s.curSlot := rfl
@[simp] theorem State.configure_slotTimer (s : State) (mode : BitVec 1) (cc : BitVec 4) (delay : Byte) :
    (s.configure mode cc delay).slotTimer = s.slotTimer := rfl
@[simp] theorem State.configure_misMatch (s : State) (mode : BitVec 1) (cc : BitVec 4) (delay : Byte) :
    (s.configure mode cc delay).misMatch = s.misMatch := rfl
@[simp] theorem State.configure_noSync (s : State) (mode : BitVec 1) (cc : BitVec 4) (delay : Byte) :
    (s.configure mode cc delay).noSync = s.noSync := rfl
@[simp] theorem State.configure_syncP (s : State) (mode : BitVec 1) (cc : BitVec 4) (delay : Byte) :
    (s.configure mode cc delay).syncP = s.syncP := rfl
@[simp] theorem State.configure_slot0 (s : State) (mode : BitVec 1) (cc : BitVec 4) (delay : Byte) :
    (s.configure mode cc delay).slot0 = s.slot0 := rfl
@[simp] theorem State.configure_slot1 (s : State) (mode : BitVec 1) (cc : BitVec 4) (delay : Byte) :
    (s.configure mode cc delay).slot1 = s.slot1 := rfl
@[simp] theorem State.configure_bsSync (s : State) (mode : BitVec 1) (cc : BitVec 4) (delay : Byte) :
    (s.configure mode cc delay).bsSync = s.bsSync := rfl
@[simp] theorem State.configure_events (s : State) (mode : BitVec 1) (cc : BitVec 4) (delay : Byte) :
    (s.configure mode cc delay).events = s.events := rfl
@[simp] theorem State.configure_responses (s : State) (mode : BitVec 1) (cc : BitVec 4) (delay : Byte) :
    (s.configure mode cc delay).responses = s.responses := rfl
@[simp] theorem State.configure_input (s : State) (mode : BitVec 1) (cc : BitVec 4) (delay : Byte) :
    (s.configure mode cc delay).input = s.input := rfl

/-! ### `withInput` -/

@[simp] theorem State.withInput_cfgCc (s : State) (rest : List Byte) : (s.withInput rest).cfgCc = s.cfgCc := rfl
@[simp] theorem State.withInput_cfgDelay (s : State) (rest : List Byte) :
    (s.withInput rest).cfgDelay = s.cfgDelay := rfl
@[simp] theorem State.withInput_cfgMode (s : State) (rest : List Byte) : (s.withInput rest).cfgMode = s.cfgMode := rfl
@[simp] theorem State.withInput_buf (s : State) (rest : List Byte) : (s.withInput rest).buf = s.buf := rfl
@[simp] theorem State.withInput_ptr (s : State) (rest : List Byte) : (s.withInput rest).ptr = s.ptr := rfl
@[simp] theorem State.withInput_pat (s : State) (rest : List Byte) : (s.withInput rest).pat = s.pat := rfl
@[simp] theorem State.withInput_delayCnt (s : State) (rest : List Byte) :
    (s.withInput rest).delayCnt = s.delayCnt := rfl
@[simp] theorem State.withInput_locked (s : State) (rest : List Byte) : (s.withInput rest).locked = s.locked := rfl
@[simp] theorem State.withInput_curSlot (s : State) (rest : List Byte) : (s.withInput rest).curSlot = s.curSlot := rfl
@[simp] theorem State.withInput_slotTimer (s : State) (rest : List Byte) :
    (s.withInput rest).slotTimer = s.slotTimer := rfl
@[simp] theorem State.withInput_misMatch (s : State) (rest : List Byte) :
    (s.withInput rest).misMatch = s.misMatch := rfl
@[simp] theorem State.withInput_noSync (s : State) (rest : List Byte) : (s.withInput rest).noSync = s.noSync := rfl
@[simp] theorem State.withInput_syncP (s : State) (rest : List Byte) : (s.withInput rest).syncP = s.syncP := rfl
@[simp] theorem State.withInput_slot0 (s : State) (rest : List Byte) : (s.withInput rest).slot0 = s.slot0 := rfl
@[simp] theorem State.withInput_slot1 (s : State) (rest : List Byte) : (s.withInput rest).slot1 = s.slot1 := rfl
@[simp] theorem State.withInput_bsSync (s : State) (rest : List Byte) : (s.withInput rest).bsSync = s.bsSync := rfl
@[simp] theorem State.withInput_events (s : State) (rest : List Byte) : (s.withInput rest).events = s.events := rfl
@[simp] theorem State.withInput_responses (s : State) (rest : List Byte) :
    (s.withInput rest).responses = s.responses := rfl
@[simp] theorem State.withInput_input (s : State) (rest : List Byte) : (s.withInput rest).input = rest := rfl

/-! ### `realign` -/

@[simp] theorem realign_cfgCc (k : SlotId) (s : State) : (realign k s).cfgCc = s.cfgCc := rfl
@[simp] theorem realign_cfgDelay (k : SlotId) (s : State) : (realign k s).cfgDelay = s.cfgDelay := rfl
@[simp] theorem realign_cfgMode (k : SlotId) (s : State) : (realign k s).cfgMode = s.cfgMode := rfl
@[simp] theorem realign_buf (k : SlotId) (s : State) : (realign k s).buf = s.buf := rfl
@[simp] theorem realign_ptr (k : SlotId) (s : State) : (realign k s).ptr = s.ptr := rfl
@[simp] theorem realign_pat (k : SlotId) (s : State) : (realign k s).pat = s.pat := rfl
@[simp] theorem realign_delayCnt (k : SlotId) (s : State) : (realign k s).delayCnt = s.delayCnt := rfl
@[simp] theorem realign_locked (k : SlotId) (s : State) : (realign k s).locked = s.locked := rfl
@[simp] theorem realign_curSlot (k : SlotId) (s : State) : (realign k s).curSlot = k := rfl
@[simp] theorem realign_slotTimer (k : SlotId) (s : State) : (realign k s).slotTimer = 179 := rfl
@[simp] theorem realign_misMatch (k : SlotId) (s : State) : (realign k s).misMatch = s.misMatch := rfl
@[simp] theorem realign_noSync (k : SlotId) (s : State) : (realign k s).noSync = s.noSync := rfl
@[simp] theorem realign_syncP (k : SlotId) (s : State) : (realign k s).syncP = s.syncP := rfl
@[simp] theorem realign_slot0 (k : SlotId) (s : State) : (realign k s).slot0 = s.slot0 := rfl
@[simp] theorem realign_slot1 (k : SlotId) (s : State) : (realign k s).slot1 = s.slot1 := rfl
@[simp] theorem realign_bsSync (k : SlotId) (s : State) : (realign k s).bsSync = s.bsSync := rfl
@[simp] theorem realign_events (k : SlotId) (s : State) : (realign k s).events = s.events := rfl
@[simp] theorem realign_responses (k : SlotId) (s : State) : (realign k s).responses = s.responses := rfl
@[simp] theorem realign_input (k : SlotId) (s : State) : (realign k s).input = s.input := rfl

/-! ### `lock` -/

@[simp] theorem lock_cfgCc (P : Params) (s : State) : (lock P s).cfgCc = s.cfgCc := rfl
@[simp] theorem lock_cfgDelay (P : Params) (s : State) : (lock P s).cfgDelay = s.cfgDelay := rfl
@[simp] theorem lock_cfgMode (P : Params) (s : State) : (lock P s).cfgMode = s.cfgMode := rfl
@[simp] theorem lock_buf (P : Params) (s : State) : (lock P s).buf = s.buf := rfl
@[simp] theorem lock_ptr (P : Params) (s : State) : (lock P s).ptr = s.ptr := rfl
@[simp] theorem lock_pat (P : Params) (s : State) : (lock P s).pat = s.pat := rfl
@[simp] theorem lock_delayCnt (P : Params) (s : State) : (lock P s).delayCnt = s.delayCnt := rfl
@[simp] theorem lock_locked (P : Params) (s : State) : (lock P s).locked = true := rfl
@[simp] theorem lock_curSlot (P : Params) (s : State) :
    (lock P s).curSlot = tactSlot P s.buf (backFrom s.ptr 179) := rfl
@[simp] theorem lock_slotTimer (P : Params) (s : State) : (lock P s).slotTimer = 179 := rfl
@[simp] theorem lock_misMatch (P : Params) (s : State) : (lock P s).misMatch = 0 := rfl
@[simp] theorem lock_noSync (P : Params) (s : State) : (lock P s).noSync = 0 := rfl
@[simp] theorem lock_syncP (P : Params) (s : State) : (lock P s).syncP = s.syncP := rfl
@[simp] theorem lock_slot0 (P : Params) (s : State) : (lock P s).slot0 = s.slot0 := rfl
@[simp] theorem lock_slot1 (P : Params) (s : State) : (lock P s).slot1 = s.slot1 := rfl
@[simp] theorem lock_bsSync (P : Params) (s : State) : (lock P s).bsSync = s.bsSync := rfl
@[simp] theorem lock_events (P : Params) (s : State) : (lock P s).events = s.events := rfl
@[simp] theorem lock_responses (P : Params) (s : State) : (lock P s).responses = s.responses := rfl
@[simp] theorem lock_input (P : Params) (s : State) : (lock P s).input = s.input := rfl

/-! ### `matchWrites` -/

@[simp] theorem matchWrites_cfgCc (k : SlotId) (m : SyncMatch) (s : State) :
    (matchWrites k m s).cfgCc = s.cfgCc := by cases k <;> rfl
@[simp] theorem matchWrites_cfgDelay (k : SlotId) (m : SyncMatch) (s : State) :
    (matchWrites k m s).cfgDelay = s.cfgDelay := by cases k <;> rfl
@[simp] theorem matchWrites_cfgMode (k : SlotId) (m : SyncMatch) (s : State) :
    (matchWrites k m s).cfgMode = s.cfgMode := by cases k <;> rfl
@[simp] theorem matchWrites_buf (k : SlotId) (m : SyncMatch) (s : State) :
    (matchWrites k m s).buf = s.buf := by cases k <;> rfl
@[simp] theorem matchWrites_ptr (k : SlotId) (m : SyncMatch) (s : State) :
    (matchWrites k m s).ptr = s.ptr := by cases k <;> rfl
@[simp] theorem matchWrites_pat (k : SlotId) (m : SyncMatch) (s : State) :
    (matchWrites k m s).pat = s.pat := by cases k <;> rfl
@[simp] theorem matchWrites_delayCnt (k : SlotId) (m : SyncMatch) (s : State) :
    (matchWrites k m s).delayCnt = s.delayCnt := by cases k <;> rfl
@[simp] theorem matchWrites_locked (k : SlotId) (m : SyncMatch) (s : State) :
    (matchWrites k m s).locked = s.locked := by cases k <;> rfl
@[simp] theorem matchWrites_curSlot (k : SlotId) (m : SyncMatch) (s : State) :
    (matchWrites k m s).curSlot = s.curSlot := by cases k <;> rfl
@[simp] theorem matchWrites_slotTimer (k : SlotId) (m : SyncMatch) (s : State) :
    (matchWrites k m s).slotTimer = s.slotTimer := by cases k <;> rfl
@[simp] theorem matchWrites_misMatch (k : SlotId) (m : SyncMatch) (s : State) :
    (matchWrites k m s).misMatch = s.misMatch := by cases k <;> rfl
@[simp] theorem matchWrites_noSync (k : SlotId) (m : SyncMatch) (s : State) :
    (matchWrites k m s).noSync = s.noSync := by cases k <;> rfl
@[simp] theorem matchWrites_syncP (k : SlotId) (m : SyncMatch) (s : State) :
    (matchWrites k m s).syncP = true := by cases k <;> rfl
@[simp] theorem matchWrites_bsSync (k : SlotId) (m : SyncMatch) (s : State) :
    (matchWrites k m s).bsSync = s.bsSync := by cases k <;> rfl
@[simp] theorem matchWrites_events (k : SlotId) (m : SyncMatch) (s : State) :
    (matchWrites k m s).events = s.events := by cases k <;> rfl
@[simp] theorem matchWrites_responses (k : SlotId) (m : SyncMatch) (s : State) :
    (matchWrites k m s).responses = s.responses := by cases k <;> rfl
@[simp] theorem matchWrites_input (k : SlotId) (m : SyncMatch) (s : State) :
    (matchWrites k m s).input = s.input := by cases k <;> rfl

/-! ### `countNoSync` -/

@[simp] theorem countNoSync_cfgCc (s : State) : (countNoSync s).cfgCc = s.cfgCc := rfl
@[simp] theorem countNoSync_cfgDelay (s : State) : (countNoSync s).cfgDelay = s.cfgDelay := rfl
@[simp] theorem countNoSync_cfgMode (s : State) : (countNoSync s).cfgMode = s.cfgMode := rfl
@[simp] theorem countNoSync_buf (s : State) : (countNoSync s).buf = s.buf := rfl
@[simp] theorem countNoSync_ptr (s : State) : (countNoSync s).ptr = s.ptr := rfl
@[simp] theorem countNoSync_pat (s : State) : (countNoSync s).pat = s.pat := rfl
@[simp] theorem countNoSync_delayCnt (s : State) : (countNoSync s).delayCnt = s.delayCnt := rfl
@[simp] theorem countNoSync_locked (s : State) : (countNoSync s).locked = s.locked := rfl
@[simp] theorem countNoSync_curSlot (s : State) : (countNoSync s).curSlot = s.curSlot := rfl
@[simp] theorem countNoSync_slotTimer (s : State) : (countNoSync s).slotTimer = s.slotTimer := rfl
@[simp] theorem countNoSync_misMatch (s : State) : (countNoSync s).misMatch = s.misMatch := rfl
@[simp] theorem countNoSync_noSync (s : State) :
    (countNoSync s).noSync = if s.syncP then 0 else if s.noSync = 127 then 127 else s.noSync + 1 := rfl
@[simp] theorem countNoSync_syncP (s : State) : (countNoSync s).syncP = false := rfl
@[simp] theorem countNoSync_slot0 (s : State) : (countNoSync s).slot0 = s.slot0 := rfl
@[simp] theorem countNoSync_slot1 (s : State) : (countNoSync s).slot1 = s.slot1 := rfl
@[simp] theorem countNoSync_bsSync (s : State) : (countNoSync s).bsSync = s.bsSync := rfl
@[simp] theorem countNoSync_events (s : State) : (countNoSync s).events = s.events := rfl
@[simp] theorem countNoSync_responses (s : State) : (countNoSync s).responses = s.responses := rfl
@[simp] theorem countNoSync_input (s : State) : (countNoSync s).input = s.input := rfl

/-! ### `unlock` -/

@[simp] theorem unlock_cfgCc (s : State) : (unlock s).cfgCc = s.cfgCc := rfl
@[simp] theorem unlock_cfgDelay (s : State) : (unlock s).cfgDelay = s.cfgDelay := rfl
@[simp] theorem unlock_cfgMode (s : State) : (unlock s).cfgMode = s.cfgMode := rfl
@[simp] theorem unlock_buf (s : State) : (unlock s).buf = 0 := rfl
@[simp] theorem unlock_ptr (s : State) : (unlock s).ptr = s.ptr := rfl
@[simp] theorem unlock_pat (s : State) : (unlock s).pat = 0 := rfl
@[simp] theorem unlock_delayCnt (s : State) : (unlock s).delayCnt = s.delayCnt := rfl
@[simp] theorem unlock_locked (s : State) : (unlock s).locked = false := rfl
@[simp] theorem unlock_curSlot (s : State) : (unlock s).curSlot = .zero := rfl
@[simp] theorem unlock_slotTimer (s : State) : (unlock s).slotTimer = 0 := rfl
@[simp] theorem unlock_misMatch (s : State) : (unlock s).misMatch = 0 := rfl
@[simp] theorem unlock_noSync (s : State) : (unlock s).noSync = 0 := rfl
@[simp] theorem unlock_syncP (s : State) : (unlock s).syncP = false := rfl
@[simp] theorem unlock_slot0 (s : State) : (unlock s).slot0 = SlotRec.reset := rfl
@[simp] theorem unlock_slot1 (s : State) : (unlock s).slot1 = SlotRec.reset := rfl
@[simp] theorem unlock_bsSync (s : State) : (unlock s).bsSync = s.bsSync := rfl
@[simp] theorem unlock_events (s : State) : (unlock s).events = s.events := rfl
@[simp] theorem unlock_responses (s : State) : (unlock s).responses = s.responses := rfl
@[simp] theorem unlock_input (s : State) : (unlock s).input = s.input := rfl

/-! ### `wrap` -/

@[simp] theorem wrap_cfgCc (s : State) : (wrap s).cfgCc = s.cfgCc := rfl
@[simp] theorem wrap_cfgDelay (s : State) : (wrap s).cfgDelay = s.cfgDelay := rfl
@[simp] theorem wrap_cfgMode (s : State) : (wrap s).cfgMode = s.cfgMode := rfl
@[simp] theorem wrap_buf (s : State) : (wrap s).buf = s.buf := rfl
@[simp] theorem wrap_ptr (s : State) : (wrap s).ptr = s.ptr := rfl
@[simp] theorem wrap_pat (s : State) : (wrap s).pat = s.pat := rfl
@[simp] theorem wrap_delayCnt (s : State) : (wrap s).delayCnt = s.delayCnt := rfl
@[simp] theorem wrap_locked (s : State) : (wrap s).locked = s.locked := rfl
@[simp] theorem wrap_curSlot (s : State) : (wrap s).curSlot = s.curSlot.other := rfl
@[simp] theorem wrap_slotTimer (s : State) : (wrap s).slotTimer = 0 := rfl
@[simp] theorem wrap_misMatch (s : State) : (wrap s).misMatch = s.misMatch := rfl
@[simp] theorem wrap_noSync (s : State) : (wrap s).noSync = s.noSync := rfl
@[simp] theorem wrap_syncP (s : State) : (wrap s).syncP = s.syncP := rfl
@[simp] theorem wrap_slot0 (s : State) : (wrap s).slot0 = s.slot0 := rfl
@[simp] theorem wrap_slot1 (s : State) : (wrap s).slot1 = s.slot1 := rfl
@[simp] theorem wrap_bsSync (s : State) : (wrap s).bsSync = s.bsSync := rfl
@[simp] theorem wrap_events (s : State) : (wrap s).events = s.events := rfl
@[simp] theorem wrap_responses (s : State) : (wrap s).responses = s.responses := rfl
@[simp] theorem wrap_input (s : State) : (wrap s).input = s.input := rfl

/-! ### `storeBit` -/

@[simp] theorem storeBit_cfgCc (b : Bool) (s : State) : (storeBit b s).cfgCc = s.cfgCc := rfl
@[simp] theorem storeBit_cfgDelay (b : Bool) (s : State) : (storeBit b s).cfgDelay = s.cfgDelay := rfl
@[simp] theorem storeBit_cfgMode (b : Bool) (s : State) : (storeBit b s).cfgMode = s.cfgMode := rfl
@[simp] theorem storeBit_buf (b : Bool) (s : State) : (storeBit b s).buf = writeBit s.buf s.ptr.toNat b := rfl
@[simp] theorem storeBit_ptr (b : Bool) (s : State) : (storeBit b s).ptr = s.ptr := rfl
@[simp] theorem storeBit_pat (b : Bool) (s : State) :
    (storeBit b s).pat = (s.pat <<< 1) ||| (BitVec.ofBool b).setWidth 64 := rfl
@[simp] theorem storeBit_delayCnt (b : Bool) (s : State) : (storeBit b s).delayCnt = s.delayCnt := rfl
@[simp] theorem storeBit_locked (b : Bool) (s : State) : (storeBit b s).locked = s.locked := rfl
@[simp] theorem storeBit_curSlot (b : Bool) (s : State) : (storeBit b s).curSlot = s.curSlot := rfl
@[simp] theorem storeBit_slotTimer (b : Bool) (s : State) : (storeBit b s).slotTimer = s.slotTimer := rfl
@[simp] theorem storeBit_misMatch (b : Bool) (s : State) : (storeBit b s).misMatch = s.misMatch := rfl
@[simp] theorem storeBit_noSync (b : Bool) (s : State) : (storeBit b s).noSync = s.noSync := rfl
@[simp] theorem storeBit_syncP (b : Bool) (s : State) : (storeBit b s).syncP = s.syncP := rfl
@[simp] theorem storeBit_slot0 (b : Bool) (s : State) : (storeBit b s).slot0 = s.slot0 := rfl
@[simp] theorem storeBit_slot1 (b : Bool) (s : State) : (storeBit b s).slot1 = s.slot1 := rfl
@[simp] theorem storeBit_bsSync (b : Bool) (s : State) : (storeBit b s).bsSync = s.bsSync := rfl
@[simp] theorem storeBit_events (b : Bool) (s : State) : (storeBit b s).events = s.events := rfl
@[simp] theorem storeBit_responses (b : Bool) (s : State) : (storeBit b s).responses = s.responses := rfl
@[simp] theorem storeBit_input (b : Bool) (s : State) : (storeBit b s).input = s.input := rfl

/-! ### `advancePtr` -/

@[simp] theorem advancePtr_cfgCc (s : State) : (advancePtr s).cfgCc = s.cfgCc := rfl
@[simp] theorem advancePtr_cfgDelay (s : State) : (advancePtr s).cfgDelay = s.cfgDelay := rfl
@[simp] theorem advancePtr_cfgMode (s : State) : (advancePtr s).cfgMode = s.cfgMode := rfl
@[simp] theorem advancePtr_buf (s : State) : (advancePtr s).buf = s.buf := rfl
@[simp] theorem advancePtr_ptr (s : State) : (advancePtr s).ptr = position (s.ptr.toNat + 1) := rfl
@[simp] theorem advancePtr_pat (s : State) : (advancePtr s).pat = s.pat := rfl
@[simp] theorem advancePtr_delayCnt (s : State) : (advancePtr s).delayCnt = s.delayCnt := rfl
@[simp] theorem advancePtr_locked (s : State) : (advancePtr s).locked = s.locked := rfl
@[simp] theorem advancePtr_curSlot (s : State) : (advancePtr s).curSlot = s.curSlot := rfl
@[simp] theorem advancePtr_slotTimer (s : State) : (advancePtr s).slotTimer = s.slotTimer := rfl
@[simp] theorem advancePtr_misMatch (s : State) : (advancePtr s).misMatch = s.misMatch := rfl
@[simp] theorem advancePtr_noSync (s : State) : (advancePtr s).noSync = s.noSync := rfl
@[simp] theorem advancePtr_syncP (s : State) : (advancePtr s).syncP = s.syncP := rfl
@[simp] theorem advancePtr_slot0 (s : State) : (advancePtr s).slot0 = s.slot0 := rfl
@[simp] theorem advancePtr_slot1 (s : State) : (advancePtr s).slot1 = s.slot1 := rfl
@[simp] theorem advancePtr_bsSync (s : State) : (advancePtr s).bsSync = s.bsSync := rfl
@[simp] theorem advancePtr_events (s : State) : (advancePtr s).events = s.events := rfl
@[simp] theorem advancePtr_responses (s : State) : (advancePtr s).responses = s.responses := rfl
@[simp] theorem advancePtr_input (s : State) : (advancePtr s).input = s.input := rfl

/-! ### `discardBit` -/

@[simp] theorem discardBit_cfgCc (s : State) : (discardBit s).cfgCc = s.cfgCc := rfl
@[simp] theorem discardBit_cfgDelay (s : State) : (discardBit s).cfgDelay = s.cfgDelay := rfl
@[simp] theorem discardBit_cfgMode (s : State) : (discardBit s).cfgMode = s.cfgMode := rfl
@[simp] theorem discardBit_buf (s : State) : (discardBit s).buf = s.buf := rfl
@[simp] theorem discardBit_ptr (s : State) : (discardBit s).ptr = s.ptr := rfl
@[simp] theorem discardBit_pat (s : State) : (discardBit s).pat = s.pat := rfl
@[simp] theorem discardBit_delayCnt (s : State) : (discardBit s).delayCnt = s.delayCnt - 1 := rfl
@[simp] theorem discardBit_locked (s : State) : (discardBit s).locked = s.locked := rfl
@[simp] theorem discardBit_curSlot (s : State) : (discardBit s).curSlot = s.curSlot := rfl
@[simp] theorem discardBit_slotTimer (s : State) : (discardBit s).slotTimer = s.slotTimer := rfl
@[simp] theorem discardBit_misMatch (s : State) : (discardBit s).misMatch = s.misMatch := rfl
@[simp] theorem discardBit_noSync (s : State) : (discardBit s).noSync = s.noSync := rfl
@[simp] theorem discardBit_syncP (s : State) : (discardBit s).syncP = s.syncP := rfl
@[simp] theorem discardBit_slot0 (s : State) : (discardBit s).slot0 = s.slot0 := rfl
@[simp] theorem discardBit_slot1 (s : State) : (discardBit s).slot1 = s.slot1 := rfl
@[simp] theorem discardBit_bsSync (s : State) : (discardBit s).bsSync = s.bsSync := rfl
@[simp] theorem discardBit_events (s : State) : (discardBit s).events = s.events := rfl
@[simp] theorem discardBit_responses (s : State) : (discardBit s).responses = s.responses := rfl
@[simp] theorem discardBit_input (s : State) : (discardBit s).input = s.input := rfl

/-! ### The slot records under updates of other fields -/

@[simp] theorem State.respondOk_slot (s : State) (payload : List Byte) (k : SlotId) : (s.respondOk payload).slot k = s.slot k := by cases k <;> rfl
@[simp] theorem State.respondIllegal_slot (s : State) (k : SlotId) : (s.respondIllegal).slot k = s.slot k := by cases k <;> rfl
@[simp] theorem State.emit_slot (s : State) (e : Event) (k : SlotId) : (s.emit e).slot k = s.slot k := by cases k <;> rfl
@[simp] theorem State.clearBits_slot (s : State) (k : SlotId) : (s.clearBits).slot k = s.slot k := by cases k <;> rfl
@[simp] theorem State.setBsSync_slot (s : State) (k : SlotId) : (s.setBsSync).slot k = s.slot k := by cases k <;> rfl
@[simp] theorem State.clearBsSync_slot (s : State) (k : SlotId) : (s.clearBsSync).slot k = s.slot k := by cases k <;> rfl
@[simp] theorem State.configure_slot (s : State) (mode : BitVec 1) (cc : BitVec 4) (delay : Byte) (k : SlotId) : (s.configure mode cc delay).slot k = s.slot k := by cases k <;> rfl
@[simp] theorem State.withInput_slot (s : State) (rest : List Byte) (k : SlotId) : (s.withInput rest).slot k = s.slot k := by cases k <;> rfl
@[simp] theorem realign_slot (k : SlotId) (s : State) (j : SlotId) : (realign k s).slot j = s.slot j := by cases j <;> rfl
@[simp] theorem lock_slot (P : Params) (s : State) (k : SlotId) : (lock P s).slot k = s.slot k := by cases k <;> rfl
@[simp] theorem countNoSync_slot (s : State) (k : SlotId) : (countNoSync s).slot k = s.slot k := by cases k <;> rfl
@[simp] theorem wrap_slot (s : State) (k : SlotId) : (wrap s).slot k = s.slot k := by cases k <;> rfl
@[simp] theorem storeBit_slot (b : Bool) (s : State) (k : SlotId) : (storeBit b s).slot k = s.slot k := by cases k <;> rfl
@[simp] theorem advancePtr_slot (s : State) (k : SlotId) : (advancePtr s).slot k = s.slot k := by cases k <;> rfl
@[simp] theorem discardBit_slot (s : State) (k : SlotId) : (discardBit s).slot k = s.slot k := by cases k <;> rfl

end Sys2Proof.Machine
end

