-- ==== Sys2Proof/Laws/Completion.lean ====
section
/-! SUPPORT. What burst completion can do: which parts of the state it reaches, and the record it leaves. -/

namespace Sys2Proof.Machine

open Sys2Proof.Config (Params)

/-! ### The part of the state a completion reaches -/

/-- `t` is `s` with events appended and the record of slot `k` rewritten. -/
def SlotAndEvents (k : SlotId) (s t : State) : Prop :=
  ∃ es r, t = { s with events := s.events ++ es }.setSlot k r

theorem SlotAndEvents.refl (k : SlotId) (s : State) : SlotAndEvents k s s :=
  ⟨[], s.slot k, by cases k <;> simp [State.setSlot]⟩

theorem SlotAndEvents.trans {k : SlotId} {s t u : State} (h₁ : SlotAndEvents k s t) (h₂ : SlotAndEvents k t u) :
    SlotAndEvents k s u := by
  obtain ⟨es, r, rfl⟩ := h₁
  obtain ⟨fs, q, rfl⟩ := h₂
  exact ⟨es ++ fs, q, by cases k <;> simp [State.setSlot]⟩

theorem SlotAndEvents.modifySlot (k : SlotId) (s : State) (f : SlotRec → SlotRec) :
    SlotAndEvents k s (s.modifySlot k f) :=
  ⟨[], f (s.slot k), by cases k <;> simp [State.modifySlot, State.setSlot]⟩

theorem SlotAndEvents.emit (k : SlotId) (s : State) (e : Event) : SlotAndEvents k s (s.emit e) :=
  ⟨[e], s.slot k, by cases k <;> rfl⟩

theorem SlotAndEvents.resetSlot (k : SlotId) (s : State) : SlotAndEvents k s (s.resetSlot k) :=
  SlotAndEvents.modifySlot k s fun _ => SlotRec.reset

/-- Every field but the record of slot `k` and the events is unchanged. -/
theorem SlotAndEvents.frame {k : SlotId} {s t : State} (h : SlotAndEvents k s t) :
    t.cfgCc = s.cfgCc ∧ t.cfgDelay = s.cfgDelay ∧ t.cfgMode = s.cfgMode ∧ t.buf = s.buf ∧ t.ptr = s.ptr ∧
      t.pat = s.pat ∧ t.delayCnt = s.delayCnt ∧ t.locked = s.locked ∧ t.curSlot = s.curSlot ∧
      t.slotTimer = s.slotTimer ∧ t.misMatch = s.misMatch ∧ t.noSync = s.noSync ∧ t.syncP = s.syncP ∧
      t.bsSync = s.bsSync ∧ t.responses = s.responses ∧ t.input = s.input ∧ t.slot k.other = s.slot k.other := by
  obtain ⟨es, r, rfl⟩ := h
  cases k <;> simp [State.setSlot, SlotId.other]

theorem SlotAndEvents.events_prefix {k : SlotId} {s t : State} (h : SlotAndEvents k s t) : s.events <+: t.events := by
  obtain ⟨es, r, rfl⟩ := h
  cases k <;> exact ⟨es, rfl⟩

/-! ### Which operations stay within it -/

theorem countMiss_reach (k : SlotId) (st0 : CallState) (s : State) : SlotAndEvents k s (countMiss k st0 s) := by
  unfold countMiss
  split
  · exact .refl k s
  · exact .modifySlot k s _

theorem surfaceLc_reach (P : Params) (k : SlotId) (burst : Burst) (dt : BitVec 4) (s : State) :
    SlotAndEvents k s (surfaceLc P k burst dt s) := by
  unfold surfaceLc
  split
  · exact .refl k s
  · split
    · exact .refl k s
    · exact .emit k s _

theorem acceptedBurst_reach (P : Params) (k : SlotId) (st0 : CallState) (burst : Burst) (dt : BitVec 4) (s : State) :
    SlotAndEvents k s (acceptedBurst P k st0 burst dt s) :=
  ((SlotAndEvents.emit k s _).trans (.modifySlot k _ _)).trans (surfaceLc_reach P k burst dt _)

theorem dataSyncBurst_reach (P : Params) (k : SlotId) (st0 : CallState) (burst : Burst) (s : State) :
    SlotAndEvents k s (dataSyncBurst P k st0 burst s) := by
  unfold dataSyncBurst
  split
  · exact countMiss_reach k st0 s
  · exact acceptedBurst_reach P k st0 burst _ s

theorem voiceSyncBurst_reach (P : Params) (k : SlotId) (st0 : CallState) (burst : Burst) (s : State) :
    SlotAndEvents k s (voiceSyncBurst P k st0 burst s) :=
  (SlotAndEvents.emit k s _).trans (.modifySlot k _ _)

theorem predictedFrame_reach (k : SlotId) (st0 : CallState) (burst : Burst) (s : State) :
    SlotAndEvents k s (predictedFrame k st0 burst s) := by
  unfold predictedFrame
  split
  · split <;> exact (SlotAndEvents.emit k s _).trans (.modifySlot k _ _)
  · exact .refl k s

theorem frameBurst_reach (P : Params) (k : SlotId) (before : SlotRec) (burst : Burst) (s : State) :
    SlotAndEvents k s (frameBurst P k before burst s) := by
  unfold frameBurst
  split
  · split
    · exact voiceSyncBurst_reach P k _ burst s
    · exact dataSyncBurst_reach P k _ burst s
  · exact (predictedFrame_reach k _ burst s).trans (countMiss_reach k _ _)

theorem idleDisarm_reach (k : SlotId) (s : State) : SlotAndEvents k s (idleDisarm k s) := by
  unfold idleDisarm
  split
  · exact .modifySlot k s _
  · exact .refl k s

/-- What `syncLoss` can do: nothing, or the loss of R243 with the scope of R244. -/
theorem syncLoss_cases (P : Params) (k : SlotId) (s : State) :
    (¬ ((s.slot k).st ≠ .idle ∧ lossN P s.cfgMode ≤ (s.slot k).miss.toNat) ∧ syncLoss P k s = s) ∨
    ((s.slot k).st ≠ .idle ∧ lossN P s.cfgMode ≤ (s.slot k).miss.toNat ∧
      ((s.cfgMode = .duplex ∧ syncLoss P k s = ((s.emit (.lost k)).resetSlot k).clearBits) ∨
        (s.cfgMode = .single ∧ syncLoss P k s = (s.emit (.lost k)).resetSlot k))) := by
  unfold syncLoss
  split
  next h =>
    refine .inr ⟨h.1, h.2, ?_⟩
    cases hm : s.cfgMode
    · exact .inl ⟨rfl, by simp⟩
    · exact .inr ⟨rfl, by simp⟩
  next h => exact .inl ⟨h, rfl⟩

/-- Everything a completion can reach: slot `k`, the events, and in duplex mode the clear of `BUF` and `PAT`. -/
theorem complete_reach (P : Params) (k : SlotId) (s : State) :
    ∃ t, SlotAndEvents k s t ∧ (complete P k s = t ∨ (s.cfgMode = .duplex ∧ complete P k s = t.clearBits)) := by
  have h₁ := (SlotAndEvents.modifySlot k s fun r => { r with seen := false }).trans
    (frameBurst_reach P k (s.slot k) (assemble s.buf s.ptr (s.slot k).inv) _)
  unfold complete
  generalize frameBurst P k (s.slot k) (assemble s.buf s.ptr (s.slot k).inv)
    (s.modifySlot k fun r => { r with seen := false }) = u at h₁ ⊢
  obtain ⟨-, h⟩ | ⟨-, -, ⟨hm, h⟩ | ⟨-, h⟩⟩ := syncLoss_cases P k u
  · exact ⟨_, h₁.trans (idleDisarm_reach k u), .inl (by rw [h])⟩
  · refine ⟨idleDisarm k ((u.emit (.lost k)).resetSlot k), (h₁.trans (.emit k u _)).trans
      ((SlotAndEvents.resetSlot k _).trans (idleDisarm_reach k _)), .inr ⟨?_, ?_⟩⟩
    · rw [← h₁.frame.2.2.1, hm]
    · rw [h]; cases k <;> rfl
  · exact ⟨_, ((h₁.trans (.emit k u _)).trans (.resetSlot k _)).trans (idleDisarm_reach k _), .inl (by rw [h])⟩

/-- A slot that is not due is left alone (R230). -/
theorem completeIfDue_of_ne (P : Params) {k : SlotId} {s : State} (h : (s.slot k).endPos ≠ some s.ptr) :
    completeIfDue P k s = s := if_neg h

/-- A slot that is due completes (R230). -/
theorem completeIfDue_of_eq (P : Params) {k : SlotId} {s : State} (h : (s.slot k).endPos = some s.ptr) :
    completeIfDue P k s = complete P k s := if_pos h

theorem completeIfDue_reach (P : Params) (k : SlotId) (s : State) :
    ∃ t, SlotAndEvents k s t ∧ (completeIfDue P k s = t ∨ (s.cfgMode = .duplex ∧ completeIfDue P k s = t.clearBits)) := by
  by_cases h : (s.slot k).endPos = some s.ptr
  · rw [completeIfDue_of_eq P h]; exact complete_reach P k s
  · exact ⟨s, .refl k s, .inl (completeIfDue_of_ne P h)⟩

/-! ### The record a completion leaves -/

theorem slot_countMiss (k : SlotId) (st0 : CallState) (s : State) :
    (countMiss k st0 s).slot k =
      { s.slot k with miss := if st0 = .idle then (s.slot k).miss else (s.slot k).miss + 1 } := by
  unfold countMiss
  split <;> simp [*]

theorem slot_surfaceLc (P : Params) (k j : SlotId) (burst : Burst) (dt : BitVec 4) (s : State) :
    (surfaceLc P k burst dt s).slot j = s.slot j := by
  unfold surfaceLc
  split
  · rfl
  · split <;> simp

theorem slot_acceptedBurst (P : Params) (k : SlotId) (st0 : CallState) (burst : Burst) (dt : BitVec 4) (s : State) :
    (acceptedBurst P k st0 burst dt s).slot k = subTypeWrites dt st0 { s.slot k with miss := 0 } := by
  unfold acceptedBurst
  rw [slot_surfaceLc]; simp

theorem slot_voiceSyncBurst (P : Params) (k : SlotId) (st0 : CallState) (burst : Burst) (s : State) :
    (voiceSyncBurst P k st0 burst s).slot k =
      { s.slot k with
        n := 0, miss := 0, st := if P.voiceLateEntry ∧ st0 ≠ .voice then .voice else (s.slot k).st } := by
  simp [voiceSyncBurst]

theorem slot_predictedFrame (k : SlotId) (st0 : CallState) (burst : Burst) (s : State) :
    (predictedFrame k st0 burst s).slot k =
      { s.slot k with
        n := if st0 = .voice then (if 5 ≤ (s.slot k).n.toNat then 0 else (s.slot k).n + 1) else (s.slot k).n } := by
  unfold predictedFrame
  split
  · split <;> simp [*]
  · simp [*]

/-- The transition table changes `ST`, `N` and `TAG` only; `N` becomes 5 or stays (R237). -/
theorem subTypeWrites_cases (dt : BitVec 4) (st0 : CallState) (r : SlotRec) :
    ∃ st n tag, subTypeWrites dt st0 r = { r with st := st, n := n, tag := tag } ∧ (n = 5 ∨ n = r.n) := by
  unfold subTypeWrites
  cases burstClass dt <;> simp only []
  case shortControl => exact ⟨r.st, r.n, r.tag, rfl, .inr rfl⟩
  case piHeader => exact ⟨_, _, r.tag, rfl, .inl rfl⟩
  case vlcHeader => exact ⟨_, _, r.tag, rfl, .inl rfl⟩
  case tlc => exact ⟨_, r.n, r.tag, rfl, .inr rfl⟩
  case dataHeader => exact ⟨_, r.n, _, rfl, .inr rfl⟩
  all_goals
    split
    · exact ⟨r.st, r.n, _, rfl, .inr rfl⟩
    · exact ⟨r.st, r.n, r.tag, rfl, .inr rfl⟩

/-- The record after `frameBurst` (R232–R241): `ST`, `N`, `TAG` and `MISS` may change, nothing else; `N` is one of 0, 5,
its old value, or one more below 5; `MISS` is 0, or unchanged in a slot that was IDLE, or one more in a slot that was
not. -/
theorem slot_frameBurst (P : Params) (k : SlotId) (before : SlotRec) (burst : Burst) (s : State) :
    ∃ st n tag miss,
      (frameBurst P k before burst s).slot k = { s.slot k with st := st, n := n, tag := tag, miss := miss } ∧
      (n = 0 ∨ n = 5 ∨ n = (s.slot k).n ∨ ((s.slot k).n.toNat < 5 ∧ n = (s.slot k).n + 1)) ∧
      (miss = 0 ∨ (before.st = .idle ∧ st = (s.slot k).st ∧ miss = (s.slot k).miss) ∨
        (before.st ≠ .idle ∧ st = (s.slot k).st ∧ miss = (s.slot k).miss + 1)) := by
  unfold frameBurst
  split
  · split
    · exact ⟨_, _, (s.slot k).tag, _, slot_voiceSyncBurst P k _ burst s, .inl rfl, .inl rfl⟩
    · unfold dataSyncBurst
      split
      · refine ⟨(s.slot k).st, (s.slot k).n, (s.slot k).tag, _, slot_countMiss k _ s, .inr (.inr (.inl rfl)), ?_⟩
        by_cases h : before.st = .idle <;> simp [h]
      · obtain ⟨st, n, tag, h, hn⟩ := subTypeWrites_cases (P.classify burst).2 before.st { s.slot k with miss := 0 }
        refine ⟨st, n, tag, 0, by rw [slot_acceptedBurst, h], ?_, .inl rfl⟩
        rcases hn with hn | hn
        · exact .inr (.inl hn)
        · exact .inr (.inr (.inl hn))
  · rw [slot_countMiss, slot_predictedFrame]
    refine ⟨(s.slot k).st, _, (s.slot k).tag, _, rfl, ?_, ?_⟩
    · by_cases hv : before.st = .voice
      · by_cases h5 : 5 ≤ (s.slot k).n.toNat
        · simp [hv, h5]
        · exact .inr (.inr (.inr ⟨by omega, by simp [hv, h5]⟩))
      · simp [hv]
    · by_cases h : before.st = .idle <;> simp [h]

theorem slot_idleDisarm (k : SlotId) (s : State) :
    (idleDisarm k s).slot k =
      if (s.slot k).st = .idle then { s.slot k with endPos := none, expSync := none, miss := 0 } else s.slot k := by
  unfold idleDisarm
  split <;> simp [*]

end Sys2Proof.Machine
end

