-- ==== Sys2Proof/Laws/Correlator.lean ====
section
/-! SUPPORT. What sync correlation can do. -/

namespace Sys2Proof.Machine

open Sys2Proof.Config (Params SyncMatch Role)

/-- Step 2 either changes nothing or accepts the one match it found (R220, R223). -/
theorem syncStep_cases (P : Params) (s : State) :
    (syncFound P s = none ∧ syncStep P s = s) ∨ (∃ m, syncFound P s = some m ∧ syncStep P s = accept P m s) := by
  unfold syncStep
  cases syncFound P s with
  | none => exact .inl ⟨rfl, rfl⟩
  | some m => exact .inr ⟨m, rfl, rfl⟩

theorem syncStep_of_none {P : Params} {s : State} (h : syncFound P s = none) : syncStep P s = s := by
  simp [syncStep, h]

theorem syncStep_of_some {P : Params} {s : State} {m : SyncMatch} (h : syncFound P s = some m) :
    syncStep P s = accept P m s := by
  simp [syncStep, h]

/-- `transmitReport` sets `BSSYNC` or does nothing (R226). -/
theorem transmitReport_eq (m : SyncMatch) (s : State) :
    transmitReport m s = { s with bsSync := s.bsSync || (decide (s.cfgMode = .duplex) && decide (m.role = Role.bs)) } := by
  unfold transmitReport
  by_cases h : s.cfgMode = .duplex ∧ m.role = .bs
  · simp [h, State.setBsSync]
  · rw [if_neg h]
    have : (decide (s.cfgMode = .duplex) && decide (m.role = Role.bs)) = false := by
      simp only [Bool.and_eq_false_iff, decide_eq_false_iff_not]; tauto
    rw [this]; simp

/-- Lock and re-alignment by mode and `LOCKED` (R223, R260, R261). -/
theorem lockOrRealign_cases (P : Params) (s : State) :
    (s.cfgMode = .duplex ∧ lockOrRealign P s = s) ∨
    (s.cfgMode = .single ∧ s.locked = false ∧ lockOrRealign P s = lock P s) ∨
    (s.cfgMode = .single ∧ s.locked = true ∧ lockOrRealign P s = realign (attributedSlot P s) s) := by
  unfold lockOrRealign
  cases hm : s.cfgMode
  · exact .inl ⟨rfl, rfl⟩
  · cases hl : s.locked
    · exact .inr (.inl ⟨rfl, rfl, by simp⟩)
    · exact .inr (.inr ⟨rfl, rfl, by simp⟩)

/-- Lock and re-alignment touch the flywheel only. -/
theorem lockOrRealign_frame (P : Params) (s : State) :
    ∃ l c t mm ns, lockOrRealign P s =
      { s with locked := l, curSlot := c, slotTimer := t, misMatch := mm, noSync := ns } := by
  obtain ⟨-, h⟩ | ⟨-, -, h⟩ | ⟨-, -, h⟩ := lockOrRealign_cases P s
  · exact ⟨s.locked, s.curSlot, s.slotTimer, s.misMatch, s.noSync, h⟩
  · exact ⟨_, _, _, _, _, h⟩
  · exact ⟨s.locked, _, _, s.misMatch, s.noSync, h⟩

/-- Everything an accepted match can change (R223): the flywheel, the attributed slot's record, `SYNCP` and `BSSYNC`. -/
theorem accept_eq (P : Params) (m : SyncMatch) (s : State) :
    ∃ l c t mm ns, accept P m s =
      matchWrites (attributedSlot P s) m
        { s with
          locked := l, curSlot := c, slotTimer := t, misMatch := mm, noSync := ns
          bsSync := s.bsSync || (decide (s.cfgMode = .duplex) && decide (m.role = Role.bs)) } := by
  obtain ⟨l, c, t, mm, ns, h⟩ := lockOrRealign_frame P s
  refine ⟨l, c, t, mm, ns, ?_⟩
  rw [accept, h, transmitReport_eq]
  cases attributedSlot P s <;> rfl

/-- Step 2 leaves the configuration, the buffer, the cursor, the counters of bits and the streams alone. -/
theorem syncStep_frame (P : Params) (s : State) :
    (syncStep P s).cfgCc = s.cfgCc ∧ (syncStep P s).cfgDelay = s.cfgDelay ∧ (syncStep P s).cfgMode = s.cfgMode ∧
      (syncStep P s).buf = s.buf ∧ (syncStep P s).ptr = s.ptr ∧ (syncStep P s).pat = s.pat ∧
      (syncStep P s).delayCnt = s.delayCnt ∧ (syncStep P s).events = s.events ∧
      (syncStep P s).responses = s.responses ∧ (syncStep P s).input = s.input := by
  obtain ⟨-, h⟩ | ⟨m, -, h⟩ := syncStep_cases P s
  · simp [h]
  · obtain ⟨l, c, t, mm, ns, ha⟩ := accept_eq P m s
    simp [h, ha]

/-- `CORR` reports a template of the enabled set within the distance (R218). -/
theorem corr_some {P : Params} {mode : Mode} {w : BitVec 48} {m : SyncMatch} (h : corr P mode w = some m) :
    ∃ t, t ∈ enabledTemplates P mode ∧ hammingDistance w t.1 ≤ P.corrMaxDist ∧ t.2 = m := by
  unfold corr at h
  rw [Option.map_eq_some_iff] at h
  obtain ⟨t, ht, rfl⟩ := h
  exact ⟨t, List.mem_of_find?_eq_some ht, by simpa using List.find?_some ht, rfl⟩

/-- `CORR` reports NONE exactly when every enabled template is too far (R218, R221). -/
theorem corr_none {P : Params} {mode : Mode} {w : BitVec 48} :
    corr P mode w = none ↔ ∀ t ∈ enabledTemplates P mode, ¬ hammingDistance w t.1 ≤ P.corrMaxDist := by
  simp [corr, List.find?_eq_none]

end Sys2Proof.Machine
end

