-- ==== Sys2Proof/Laws/Decode.lean ====
section
/-! SUPPORT. What the decoder can answer (30_encoding.md R110, R115, R116). -/

namespace Sys2Proof

/-- The decoder on an opcode byte and what follows it: an illegal opcode, a command with all its operand bytes, or an
incomplete command. -/
theorem decode_cases (opcode : Byte) (bytes : List Byte) :
    (opcodeRow opcode = none ∧ decode (opcode :: bytes) = .illegalOpcode opcode bytes) ∨
    (∃ n make, opcodeRow opcode = some (n, make) ∧
      ((n ≤ bytes.length ∧ decode (opcode :: bytes) = .command (make (bytes.take n)) (bytes.drop n)) ∨
        (bytes.length < n ∧ decode (opcode :: bytes) = .incomplete))) := by
  cases h : opcodeRow opcode with
  | none => exact .inl ⟨rfl, by simp [decode, h]⟩
  | some row =>
    obtain ⟨n, make⟩ := row
    refine .inr ⟨n, make, rfl, ?_⟩
    by_cases hn : n ≤ bytes.length
    · exact .inl ⟨hn, by simp [decode, h, hn]⟩
    · exact .inr ⟨by omega, by simp [decode, h, hn]⟩

/-- The number of operand bytes a row of the table gives (R116). -/
theorem operandCount_of_row {opcode : Byte} {n : Nat} {make : List Byte → Instr}
    (h : opcodeRow opcode = some (n, make)) : operandCount opcode = n := by
  rw [operandCount, h]

/-- No command is decoded from no byte. -/
theorem decode_nil : decode [] = .incomplete := rfl

/-- The fields of CONFIG's first operand byte are read back as they were packed (R111). -/
theorem configOf_layout (mode : BitVec 1) (rsv : BitVec 3) (cc : BitVec 4) (delay : Byte) :
    configOf (mode ++ rsv ++ cc) delay = .config mode rsv cc delay := by
  revert mode rsv cc
  simp only [configOf, Instr.config.injEq, and_true]
  decide

end Sys2Proof
end

