-- ==== Sys2Proof/Laws/Flywheel.lean ====
section
/-! SUPPORT. What the flywheel can do. -/

namespace Sys2Proof.Machine

open Sys2Proof.Config (Params)

/-- Step 4: off, between period ends, or at a period end (R262). -/
theorem flywheel_cases (P : Params) (s : State) :
    (¬ (s.cfgMode = .single ∧ s.locked = true) ∧ flywheel P s = s) ∨
    (s.cfgMode = .single ∧ s.locked = true ∧ s.slotTimer ≠ 287 ∧
      flywheel P s = { s with slotTimer := s.slotTimer + 1 }) ∨
    (s.cfgMode = .single ∧ s.locked = true ∧ s.slotTimer = 287 ∧ flywheel P s = periodEnd P s) := by
  unfold flywheel
  split
  next h =>
    split
    next ht => exact .inr (.inr ⟨h.1, h.2, ht, rfl⟩)
    next ht => exact .inr (.inl ⟨h.1, h.2, ht, rfl⟩)
  next h => exact .inl ⟨h, rfl⟩

/-- The phase check writes `MISMATCH` (R263). -/
theorem phaseCheck_eq (P : Params) (s : State) :
    phaseCheck P s =
      { s with
        misMatch := if tactSlot P s.buf (backFrom s.ptr 287) = s.curSlot then 0 else s.misMatch + 1 } := by
  unfold phaseCheck
  split <;> rfl

/-- The phase correction exchanges the records or does nothing (R264). -/
theorem phaseCorrect_cases (s : State) :
    (s.misMatch.toNat < 2 ∧ phaseCorrect s = s) ∨
    (2 ≤ s.misMatch.toNat ∧
      phaseCorrect s = { s with slot0 := s.slot1, slot1 := s.slot0, curSlot := s.curSlot.other, misMatch := 0 }) := by
  unfold phaseCorrect
  split
  next h => exact .inr ⟨h, rfl⟩
  next h => exact .inl ⟨by omega, rfl⟩

theorem unlockDue_iff (P : Params) (s : State) :
    unlockDue P s = true ↔ P.unlockN ≤ s.noSync.toNat ∧ s.slot0.st = .idle ∧ s.slot1.st = .idle := by
  simp [unlockDue, and_assoc]

/-- The saturating count (R265). -/
theorem countNoSync_toNat (s : State) :
    (countNoSync s).noSync.toNat = if s.syncP then 0 else min (s.noSync.toNat + 1) 127 := by
  have := s.noSync.isLt
  rw [countNoSync_noSync]
  by_cases hs : s.syncP = true
  · simp [hs]
  · rw [Bool.not_eq_true] at hs
    rw [hs]
    by_cases h : s.noSync = 127
    · simp [h]
    · have hne : s.noSync.toNat ≠ 127 := fun e => h (BitVec.eq_of_toNat_eq (by simpa using e))
      have hv : (if false = true then (0 : BitVec 7) else if s.noSync = 127 then 127 else s.noSync + 1)
          = s.noSync + 1 := by rw [if_neg (by decide), if_neg h]
      rw [hv, BitVec.toNat_add, if_neg (by decide)]
      simp; omega

/-- Unlock or wrap (R266). -/
theorem unlockOrWrap_cases (P : Params) (s : State) :
    (unlockDue P s = true ∧ unlockOrWrap P s = unlock s) ∨ (unlockDue P s = false ∧ unlockOrWrap P s = wrap s) := by
  unfold unlockOrWrap
  cases h : unlockDue P s
  · exact .inr ⟨rfl, by simp⟩
  · exact .inl ⟨rfl, by simp⟩

/-- Everything the end of a slot period can change: the flywheel fields, the slot records (an exchange or a reset), and in
an unlock the buffer and the pattern register, both cleared (R263–R266). -/
theorem periodEnd_reach (P : Params) (s : State) :
    ∃ l c t mm ns sp r0 r1,
      periodEnd P s =
          { s with
            locked := l, curSlot := c, slotTimer := t, misMatch := mm, noSync := ns, syncP := sp
            slot0 := r0, slot1 := r1 } ∨
        periodEnd P s =
          { s.clearBits with
            locked := l, curSlot := c, slotTimer := t, misMatch := mm, noSync := ns, syncP := sp
            slot0 := r0, slot1 := r1 } := by
  unfold periodEnd
  rw [phaseCheck_eq]
  obtain ⟨-, hc⟩ | ⟨-, hc⟩ := phaseCorrect_cases
    { s with misMatch := if tactSlot P s.buf (backFrom s.ptr 287) = s.curSlot then 0 else s.misMatch + 1 }
  all_goals
    rw [hc]
    obtain ⟨-, hu⟩ | ⟨-, hu⟩ := unlockOrWrap_cases P (countNoSync _) <;> rw [hu]
    · exact ⟨_, _, _, _, _, _, _, _, .inr rfl⟩
    · exact ⟨_, _, _, _, _, _, _, _, .inl rfl⟩

/-- The flywheel leaves the configuration, the cursor, the delay count, the transmit level and the streams alone; the
buffer and the pattern register are kept or both cleared. -/
theorem flywheel_frame (P : Params) (s : State) :
    (flywheel P s).cfgCc = s.cfgCc ∧ (flywheel P s).cfgDelay = s.cfgDelay ∧ (flywheel P s).cfgMode = s.cfgMode ∧
      (flywheel P s).ptr = s.ptr ∧ (flywheel P s).delayCnt = s.delayCnt ∧ (flywheel P s).bsSync = s.bsSync ∧
      (flywheel P s).events = s.events ∧ (flywheel P s).responses = s.responses ∧ (flywheel P s).input = s.input ∧
      (((flywheel P s).buf = s.buf ∧ (flywheel P s).pat = s.pat) ∨
        ((flywheel P s).buf = 0 ∧ (flywheel P s).pat = 0)) := by
  obtain ⟨-, h⟩ | ⟨-, -, -, h⟩ | ⟨-, -, -, h⟩ := flywheel_cases P s
  · simp [h]
  · simp [h]
  · obtain ⟨l, c, t, mm, ns, sp, r0, r1, he⟩ := periodEnd_reach P s
    rcases he with he | he <;> rw [h, he] <;> simp [State.clearBits]

end Sys2Proof.Machine
end

