-- ==== Sys2Proof/Laws/Parity.lean ====
section
/-! SUPPORT. What the parity validator's operations can do (41_parity_rs.md). -/

namespace Sys2Proof.Machine

open Sys2Proof.Config (Params)

theorem expEntries_length (P : Params) (n : Nat) (a : Byte) : (expEntries P n a).length = n := by
  induction n generalizing a with
  | zero => rfl
  | succ n ih => simp [expEntries, ih]

@[simp] theorem expTable_length (P : Params) : (expTable P).length = 255 := expEntries_length P 255 1

/-- Entry `i` of the table from `a` on is `a` multiplied `i` times by α (R172). -/
theorem expEntries_getD (P : Params) (n i : Nat) (a : Byte) (h : i < n) :
    (expEntries P n a).getD i 0 = (timesAlpha P)^[i] a := by
  induction n generalizing a i with
  | zero => omega
  | succ n ih =>
    cases i with
    | zero => rfl
    | succ i => rw [expEntries, List.getD_cons_succ, ih i (timesAlpha P a) (by omega), Function.iterate_succ_apply]

/-- `gexp(e)` is 1 multiplied `e mod 255` times by α (R172). -/
theorem gexp_eq (P : Params) (e : Nat) : gexp P e = (timesAlpha P)^[e % 255] 1 :=
  expEntries_getD P 255 (e % 255) 1 (Nat.mod_lt _ (by decide))

theorem gexp_mod (P : Params) (e : Nat) : gexp P (e % 255) = gexp P e := by rw [gexp, gexp, Nat.mod_mod]

/-- `LOG` inverts `EXP` on the table's entries (R172). -/
theorem gexp_glog (P : Params) {a : Byte} (h : a ∈ expTable P) : gexp P (glog P a) = a := by
  have hl : glog P a < 255 := by rw [← expTable_length P]; exact List.idxOf_lt_length_of_mem h
  rw [gexp, Nat.mod_eq_of_lt hl, glog, List.getD_eq_getElem _ _ (List.idxOf_lt_length_of_mem h)]
  exact List.getElem_idxOf _

@[simp] theorem gmul_zero_left (P : Params) (b : Byte) : gmul P 0 b = 0 := by simp [gmul]

@[simp] theorem gmul_zero_right (P : Params) (a : Byte) : gmul P a 0 = 0 := by simp [gmul]

/-- The product of two nonzero bytes adds their logarithms (R172). -/
theorem gmul_of_ne_zero (P : Params) {a b : Byte} (ha : a ≠ 0) (hb : b ≠ 0) :
    gmul P a b = gexp P (glog P a + glog P b) :=
  if_neg (by simp only [ha, hb, or_self, not_false_eq_true])

theorem gmul_comm (P : Params) (a b : Byte) : gmul P a b = gmul P b a := by
  unfold gmul
  rw [Nat.add_comm]
  simp only [or_comm]

/-- A codeword is valid exactly when its three syndromes are 0 (R175). -/
theorem rsValid_iff (P : Params) (codeword : List Byte) :
    rsValid P codeword = true ↔
      rsSyndrome P codeword 0 = 0 ∧ rsSyndrome P codeword 1 = 0 ∧ rsSyndrome P codeword 2 = 0 := by
  simp [rsValid, and_assoc]

end Sys2Proof.Machine
end

