-- ==== Sys2Proof/Laws/LinkControl.lean ====
section
/-! SUPPORT. What the Link-Control extractor can answer (42_link_control.md). -/

namespace Sys2Proof.Machine

open Sys2Proof.Config (Params)

/-- Unmasking leaves bytes 0–8 (R193). -/
theorem unmask_take (P : Params) (kind : LcKind) {raw : List Byte} (h : 9 ≤ raw.length) :
    (unmask P kind raw).take 9 = raw.take 9 := by
  rw [unmask, List.take_append_of_le_length (by simp [h]), List.take_take]; simp

@[simp] theorem unmask_length (P : Params) (kind : LcKind) {raw : List Byte} (h : 9 ≤ raw.length) :
    (unmask P kind raw).length = 12 := by simp [unmask, h]

@[simp] theorem lcRaw_length (P : Params) (burst : Burst) (kind : LcKind) : (lcRaw P burst kind).length = 12 :=
  unmask_length P kind (by simp)

/-- `HOW`: PARITY for a valid block; FALLBACK for an invalid, plausible one; REJECT otherwise (R195). -/
theorem lcHow_cases (P : Params) (raw : List Byte) :
    (rsValid P raw = true ∧ lcHow P raw = some .parity) ∨
    (rsValid P raw = false ∧ lcPlausible (LcRecord.ofBytes raw) = true ∧ lcHow P raw = some .fallback) ∨
    (rsValid P raw = false ∧ lcPlausible (LcRecord.ofBytes raw) = false ∧ lcHow P raw = none) := by
  unfold lcHow
  cases rsValid P raw <;> cases lcPlausible (LcRecord.ofBytes raw) <;> simp

/-- The extractor's answer: no record, or the record of the unmasked bytes (R196). -/
theorem lcx_cases (P : Params) (burst : Burst) (kind : LcKind) :
    (lcHow P (lcRaw P burst kind) = none ∧ lcx P burst kind = none) ∨
    (∃ how, lcHow P (lcRaw P burst kind) = some how ∧
      lcx P burst kind = some (how, LcRecord.ofBytes (lcRaw P burst kind))) := by
  unfold lcx
  cases lcHow P (lcRaw P burst kind) with
  | none => exact .inl ⟨rfl, rfl⟩
  | some how => exact .inr ⟨how, rfl, rfl⟩

@[simp] theorem lcPayload_none : lcPayload none = List.replicate 10 0x00 := rfl

@[simp] theorem lcPayload_some (how : How) (record : LcRecord) :
    lcPayload (some (how, record)) = how.toByte :: record.toBytes := rfl

@[simp] theorem lcPayload_length (result : Option (How × LcRecord)) : (lcPayload result).length = 10 := by
  cases result <;> rfl

end Sys2Proof.Machine
end

