-- ==== Sys2Proof/Laws/PerInstr.lean ====
section
/-! SUPPORT. The family `EncodeLength`, one lemma per constructor of `Instr`: the encoding of a well-formed command is its
opcode byte followed by exactly the operand bytes that opcode takes (30_encoding.md R110, R116). -/

namespace Sys2Proof.Laws.EncodeLength

/-- The encoding of a well-formed command is an opcode byte and the number of operand bytes of that opcode. -/
def Statement (i : Instr) : Prop :=
  i.wellFormed = true → ∃ opcode operands, encode i = opcode :: operands ∧ operands.length = operandCount opcode

theorem nop : Statement .nop := fun _ => ⟨0x00, [], rfl, rfl⟩

theorem reset : Statement .reset := fun _ => ⟨0x01, [], rfl, rfl⟩

theorem config (mode : BitVec 1) (rsv : BitVec 3) (cc : BitVec 4) (delay : Byte) :
    Statement (.config mode rsv cc delay) := fun _ => ⟨0x02, _, rfl, rfl⟩

theorem status : Statement .status := fun _ => ⟨0x03, [], rfl, rfl⟩

theorem txsyncPoll : Statement .txsyncPoll := fun _ => ⟨0x04, [], rfl, rfl⟩

theorem bit0 : Statement .bit0 := fun _ => ⟨0x10, [], rfl, rfl⟩

theorem bit1 : Statement .bit1 := fun _ => ⟨0x11, [], rfl, rfl⟩

theorem bptcDecode (operand : List Byte) : Statement (.bptcDecode operand) :=
  fun h => ⟨0x20, operand, rfl, beq_iff_eq.mp h⟩

theorem rsCheck (codeword : List Byte) : Statement (.rsCheck codeword) :=
  fun h => ⟨0x21, codeword, rfl, beq_iff_eq.mp h⟩

theorem lcDecodeVh (burst : List Byte) : Statement (.lcDecodeVh burst) :=
  fun h => ⟨0x22, burst, rfl, beq_iff_eq.mp h⟩

theorem lcDecodeTlc (burst : List Byte) : Statement (.lcDecodeTlc burst) :=
  fun h => ⟨0x23, burst, rfl, beq_iff_eq.mp h⟩

end Sys2Proof.Laws.EncodeLength
end

