-- ==== Sys2Proof/Laws/Receiver.lean ====
section
/-! SUPPORT. What the BIT command can do. -/

namespace Sys2Proof.Machine

open Sys2Proof.Config (Params)

/-- A received bit is discarded or accepted (R211, R212). -/
theorem receiveBit_cases (P : Params) (b : Bool) (s : State) :
    (s.delayCnt ≠ 0 ∧ receiveBit P b s = discardBit s) ∨ (s.delayCnt = 0 ∧ receiveBit P b s = acceptBit P b s) := by
  unfold receiveBit
  split
  next h => exact .inr ⟨h, rfl⟩
  next h => exact .inl ⟨h, rfl⟩

/-- Step 3 for one slot leaves the configuration, the cursor, the delay count, the flywheel, the transmit level, the
responses, the command stream and the other slot alone; the events grow; `BUF` and `PAT` are kept or, in duplex mode,
both cleared. -/
theorem completeIfDue_frame (P : Params) (k : SlotId) (s : State) :
    let t := completeIfDue P k s
    t.cfgCc = s.cfgCc ∧ t.cfgDelay = s.cfgDelay ∧ t.cfgMode = s.cfgMode ∧ t.ptr = s.ptr ∧ t.delayCnt = s.delayCnt ∧
      t.locked = s.locked ∧ t.curSlot = s.curSlot ∧ t.slotTimer = s.slotTimer ∧ t.misMatch = s.misMatch ∧
      t.noSync = s.noSync ∧ t.syncP = s.syncP ∧ t.bsSync = s.bsSync ∧ t.responses = s.responses ∧
      t.input = s.input ∧ t.slot k.other = s.slot k.other ∧ s.events <+: t.events ∧
      ((t.buf = s.buf ∧ t.pat = s.pat) ∨ (s.cfgMode = .duplex ∧ t.buf = 0 ∧ t.pat = 0)) := by
  obtain ⟨t, hr, h⟩ := completeIfDue_reach P k s
  have hf := hr.frame
  have he := hr.events_prefix
  rcases h with h | ⟨hm, h⟩
  · simp only [h, hf, he, true_and]
    tauto
  · simp [h, hf, he, hm]

/-- Step 3 keeps what one slot's completion keeps, for both slots. -/
theorem completions_frame (P : Params) (s : State) :
    let t := completeIfDue P .one (completeIfDue P .zero s)
    t.cfgCc = s.cfgCc ∧ t.cfgDelay = s.cfgDelay ∧ t.cfgMode = s.cfgMode ∧ t.ptr = s.ptr ∧ t.delayCnt = s.delayCnt ∧
      t.locked = s.locked ∧ t.curSlot = s.curSlot ∧ t.slotTimer = s.slotTimer ∧ t.misMatch = s.misMatch ∧
      t.noSync = s.noSync ∧ t.syncP = s.syncP ∧ t.bsSync = s.bsSync ∧ t.responses = s.responses ∧
      t.input = s.input ∧ s.events <+: t.events ∧
      ((t.buf = s.buf ∧ t.pat = s.pat) ∨ (s.cfgMode = .duplex ∧ t.buf = 0 ∧ t.pat = 0)) := by
  obtain ⟨a1, a2, a3, a4, a5, a6, a7, a8, a9, a10, a11, a12, a13, a14, -, a16, a17⟩ := completeIfDue_frame P .zero s
  obtain ⟨b1, b2, b3, b4, b5, b6, b7, b8, b9, b10, b11, b12, b13, b14, -, b16, b17⟩ :=
    completeIfDue_frame P .one (completeIfDue P .zero s)
  refine ⟨b1.trans a1, b2.trans a2, b3.trans a3, b4.trans a4, b5.trans a5, b6.trans a6, b7.trans a7, b8.trans a8,
    b9.trans a9, b10.trans a10, b11.trans a11, b12.trans a12, b13.trans a13, b14.trans a14, a16.trans b16, ?_⟩
  rcases b17 with ⟨h1, h2⟩ | ⟨h0, h1, h2⟩
  · rcases a17 with ⟨g1, g2⟩ | ⟨g0, g1, g2⟩
    · exact .inl ⟨h1.trans g1, h2.trans g2⟩
    · exact .inr ⟨g0, h1.trans g1, h2.trans g2⟩
  · exact .inr ⟨a3.symm.trans h0, h1, h2⟩

/-- What every accepted bit does to the cursor and leaves alone (R211, R219). -/
theorem acceptBit_frame (P : Params) (b : Bool) (s : State) :
    let t := acceptBit P b s
    t.cfgCc = s.cfgCc ∧ t.cfgDelay = s.cfgDelay ∧ t.cfgMode = s.cfgMode ∧ t.ptr = position (s.ptr.toNat + 1) ∧
      t.delayCnt = s.delayCnt ∧ t.responses = s.responses ∧ t.input = s.input ∧ s.events <+: t.events := by
  obtain ⟨a1, a2, a3, -, a5, -, a7, a8, a9, a10⟩ := syncStep_frame P (storeBit b s)
  obtain ⟨b1, b2, b3, b4, b5, -, -, -, -, -, -, -, b13, b14, b15, -⟩ := completions_frame P (syncStep P (storeBit b s))
  obtain ⟨c1, c2, c3, c4, c5, -, c7, c8, c9, -⟩ :=
    flywheel_frame P (completeIfDue P .one (completeIfDue P .zero (syncStep P (storeBit b s))))
  refine ⟨?_, ?_, ?_, ?_, ?_, ?_, ?_, ?_⟩
  · exact c1.trans (b1.trans a1)
  · exact c2.trans (b2.trans a2)
  · exact c3.trans (b3.trans a3)
  · have hp := c4.trans (b4.trans (syncStep_frame P (storeBit b s)).2.2.2.2.1)
    simp only [acceptBit, advancePtr_ptr, hp, storeBit_ptr]
  · exact c5.trans (b5.trans a7)
  · exact c8.trans (b13.trans a9)
  · exact c9.trans (b14.trans a10)
  · have he : (acceptBit P b s).events = _ := c7
    rw [he]
    exact (show s.events <+: (syncStep P (storeBit b s)).events by rw [a8]; exact List.prefix_refl _).trans b15

/-- An accepted bit leaves `PAT` as step 1 wrote it, or cleared by a sync loss or an unlock (R214, R244, R266). -/
theorem acceptBit_pat (P : Params) (b : Bool) (s : State) :
    (acceptBit P b s).pat = (storeBit b s).pat ∨ (acceptBit P b s).pat = 0 := by
  obtain ⟨-, -, -, -, -, a, -⟩ := syncStep_frame P (storeBit b s)
  obtain ⟨-, -, -, -, -, -, -, -, -, -, -, -, -, -, -, hb⟩ := completions_frame P (syncStep P (storeBit b s))
  obtain ⟨-, -, -, -, -, -, -, -, -, hc⟩ :=
    flywheel_frame P (completeIfDue P .one (completeIfDue P .zero (syncStep P (storeBit b s))))
  simp only [acceptBit, advancePtr_pat]
  rcases hc with ⟨-, hc⟩ | ⟨-, hc⟩
  · rcases hb with ⟨-, hb⟩ | ⟨-, -, hb⟩
    · exact .inl (hc.trans (hb.trans a))
    · exact .inr (hc.trans hb)
  · exact .inr hc

/-- A BIT command always answers a next state, with one response: `ACTIVE` after the state change (R270). -/
theorem exec_bitCommand (b : Bool) (s : State) :
    exec (if b then .bit1 else .bit0) s = .next (respondActive (receiveBit params b s)) := by
  cases b <;> rfl

end Sys2Proof.Machine
end

