-- ==== Sys2Proof/Laws/Step.lean ====
section
/-! SUPPORT. What a step can do, and that every command answers a next state. -/

namespace Sys2Proof.Machine

/-- A step performs a command, answers an illegal opcode, or waits (R281, R303, R304). -/
theorem step_cases (s : State) :
    (∃ i rest, decode s.input = .command i rest ∧ step s = exec i (s.withInput rest)) ∨
    (∃ opcode rest, decode s.input = .illegalOpcode opcode rest ∧ step s = .next (s.withInput rest).respondIllegal) ∨
    (decode s.input = .incomplete ∧ step s = .next s) := by
  unfold step State.nextCommand
  cases h : decode s.input with
  | command i rest => exact .inl ⟨i, rest, rfl, rfl⟩
  | illegalOpcode opcode rest => exact .inr (.inl ⟨opcode, rest, rfl, rfl⟩)
  | incomplete => exact .inr (.inr ⟨rfl, rfl⟩)

/-- The state each command leaves before its response is added, and the payload of that response. -/
theorem exec_cases (i : Instr) (s : State) :
    ∃ t payload, exec i s = .next (t.respondOk payload) ∧
      (t = s ∨ t = s.receiveReset ∨ (∃ mode cc delay, t = (s.configure mode cc delay).receiveReset) ∨
        t = s.clearBsSync ∨ ∃ b, t = receiveBit params b s) := by
  cases i with
  | nop => exact ⟨s, _, rfl, .inl rfl⟩
  | reset => exact ⟨_, _, rfl, .inr (.inl rfl)⟩
  | config mode rsv cc delay => exact ⟨_, _, rfl, .inr (.inr (.inl ⟨mode, cc, delay, rfl⟩))⟩
  | status => exact ⟨s, _, rfl, .inl rfl⟩
  | txsyncPoll => exact ⟨_, _, rfl, .inr (.inr (.inr (.inl rfl)))⟩
  | bit0 => exact ⟨_, _, rfl, .inr (.inr (.inr (.inr ⟨false, rfl⟩)))⟩
  | bit1 => exact ⟨_, _, rfl, .inr (.inr (.inr (.inr ⟨true, rfl⟩)))⟩
  | bptcDecode operand => exact ⟨s, _, rfl, .inl rfl⟩
  | rsCheck codeword => exact ⟨s, _, rfl, .inl rfl⟩
  | lcDecodeVh burst => exact ⟨s, _, rfl, .inl rfl⟩
  | lcDecodeTlc burst => exact ⟨s, _, rfl, .inl rfl⟩

end Sys2Proof.Machine
end

