-- ==== Sys2Proof/Laws/Run.lean ====
section
/-! SUPPORT. What a run can do (70_reset_and_hazards.md R333). -/

namespace Sys2Proof.Machine

@[simp] theorem State.deliver_input (s : State) (bytes : List Byte) : (s.deliver bytes).input = s.input ++ bytes := rfl
@[simp] theorem State.deliver_events (s : State) (bytes : List Byte) : (s.deliver bytes).events = s.events := rfl
@[simp] theorem State.deliver_responses (s : State) (bytes : List Byte) :
    (s.deliver bytes).responses = s.responses := rfl

/-- Decoding a command or an illegal opcode takes at least the opcode byte. -/
theorem decode_rest_length {bytes : List Byte} :
    (∀ i rest, decode bytes = .command i rest → rest.length < bytes.length) ∧
      (∀ opcode rest, decode bytes = .illegalOpcode opcode rest → rest.length < bytes.length) := by
  cases bytes with
  | nil => simp [decode_nil]
  | cons opcode bytes =>
    obtain ⟨-, h⟩ | ⟨n, make, -, ⟨-, h⟩ | ⟨-, h⟩⟩ := decode_cases opcode bytes <;> rw [h]
    · simp
    · simp only [Decoded.command.injEq, List.length_cons, reduceCtorEq, false_implies, implies_true, and_true]
      rintro i rest ⟨-, rfl⟩
      simp only [List.length_drop]
      omega
    · simp

/-- A received bit leaves the two streams of the boundary alone. -/
theorem receiveBit_streams (b : Bool) (s : State) :
    (receiveBit params b s).responses = s.responses ∧ (receiveBit params b s).input = s.input ∧
      s.events <+: (receiveBit params b s).events := by
  obtain ⟨-, h⟩ | ⟨-, h⟩ := receiveBit_cases params b s <;> rw [h]
  · exact ⟨rfl, rfl, List.prefix_refl _⟩
  · obtain ⟨-, -, -, -, -, h1, h2, h3⟩ := acceptBit_frame params b s
    exact ⟨h1, h2, h3⟩

/-- What a command does to the three streams: one response more, perhaps events more, the command stream as it was. -/
theorem exec_streams (i : Instr) (s : State) :
    ∃ t response, exec i s = .next t ∧ t.responses = s.responses ++ [response] ∧ t.input = s.input ∧
      s.events <+: t.events := by
  obtain ⟨t, payload, h, ht⟩ := exec_cases i s
  refine ⟨_, ⟨0x00, payload⟩, h, ?_⟩
  obtain rfl | rfl | ⟨mode, cc, delay, rfl⟩ | rfl | ⟨b, rfl⟩ := ht
  · exact ⟨rfl, rfl, List.prefix_refl _⟩
  · exact ⟨rfl, rfl, List.prefix_refl _⟩
  · exact ⟨rfl, rfl, List.prefix_refl _⟩
  · exact ⟨rfl, rfl, List.prefix_refl _⟩
  · obtain ⟨h1, h2, h3⟩ := receiveBit_streams b s
    exact ⟨by simp [State.respondOk, h1], h2, h3⟩

/-- What a step does to the streams: it takes one complete command and adds its response, or waits. -/
theorem step_streams (s : State) :
    ∃ t, step s = .next t ∧ s.events <+: t.events ∧
      ((decode s.input = .incomplete ∧ t = s) ∨
        ((∃ response, t.responses = s.responses ++ [response]) ∧
          ((∃ i, decode s.input = .command i t.input) ∨ ∃ opcode, decode s.input = .illegalOpcode opcode t.input))) := by
  obtain ⟨i, rest, hd, hs⟩ | ⟨opcode, rest, hd, hs⟩ | ⟨hd, hs⟩ := step_cases s
  · obtain ⟨t, r, ht, h1, h2, h3⟩ := exec_streams i (s.withInput rest)
    exact ⟨t, hs.trans ht, h3, .inr ⟨⟨r, h1⟩, .inl ⟨i, by rw [h2]; exact hd⟩⟩⟩
  · exact ⟨_, hs, List.prefix_refl _, .inr ⟨⟨_, rfl⟩, .inr ⟨opcode, hd⟩⟩⟩
  · exact ⟨s, hs, List.prefix_refl _, .inl ⟨hd, rfl⟩⟩

/-- Any number of steps: they answer a next state, append one response for each complete command they perform, and keep
the responses and events already there; as many steps as there are bytes leave no complete command. -/
theorem runSteps_streams (n : Nat) (s : State) :
    ∃ t added, runSteps n s = .next t ∧ t.responses = s.responses ++ added ∧
      added.length = (completeCommands n s.input).length ∧ s.events <+: t.events ∧
      (s.input.length ≤ n → decode t.input = .incomplete) := by
  induction n generalizing s with
  | zero =>
    refine ⟨s, [], rfl, by simp, rfl, List.prefix_refl _, fun h => ?_⟩
    rw [List.length_eq_zero_iff.mp (Nat.le_zero.mp h)]
    exact decode_nil
  | succ n ih =>
    obtain ⟨t, hs, he, ⟨hd, rfl⟩ | ⟨⟨r, hr⟩, hd⟩⟩ := step_streams s
    · have hw : ∀ m, runSteps m t = .next t := fun m => by
        induction m with
        | zero => rfl
        | succ m ihm => rw [runSteps, hs]; exact ihm
      exact ⟨t, [], hw _, by simp, by simp [completeCommands, hd], List.prefix_refl _, fun _ => hd⟩
    · obtain ⟨u, added, hu, h1, h2, h3, h4⟩ := ih t
      have hlen : t.input.length < s.input.length := by
        obtain ⟨i, hd⟩ | ⟨opcode, hd⟩ := hd
        · exact decode_rest_length.1 _ _ hd
        · exact decode_rest_length.2 _ _ hd
      refine ⟨u, r :: added, by rw [runSteps, hs]; exact hu, by rw [h1, hr]; simp, ?_, he.trans h3,
        fun h => h4 (by omega)⟩
      obtain ⟨i, hd⟩ | ⟨opcode, hd⟩ := hd <;> simp [completeCommands, hd, h2]

/-- A run answers a next state from every state; its observation holds one response for each complete command delivered,
what it shows is all that was added, and no complete command is left unperformed (R333, R304). -/
theorem run_streams (bytes : List Byte) (s : State) :
    ∃ t, run bytes s = .next t ∧
      t.responses = s.responses ++ (observe s t).responses ∧ t.events = s.events ++ (observe s t).events ∧
      (observe s t).responses.length =
        (completeCommands (s.input ++ bytes).length (s.input ++ bytes)).length ∧
      decode t.input = .incomplete := by
  obtain ⟨t, added, ht, h1, h2, ⟨es, h3⟩, h4⟩ := runSteps_streams (s.deliver bytes).input.length (s.deliver bytes)
  rw [State.deliver_responses] at h1
  rw [State.deliver_events] at h3
  rw [State.deliver_input] at h2
  refine ⟨t, ht, ?_, ?_, ?_, h4 (Nat.le_refl _)⟩
  · simp [observe, h1]
  · simp [observe, ← h3]
  · simp only [observe, h1, List.drop_left]
    exact h2

end Sys2Proof.Machine
end

