-- ==== Sys2Proof/Machine/Script.lean ====
section
/-! DEFINITION. Command scripts (30_encoding.md R117) and the pseudo-instructions, which expand to commands (R118). A line
of text is a list of characters, so that the kernel can read one. -/

namespace Sys2Proof.Machine

/-! ### Pseudo-instructions (R118) -/

/-- The BIT command of opcode bit 0 = `b` (R110). -/
def bitInstr (b : Bool) : Instr := if b then .bit1 else .bit0

/-- `BITS <hex>, <n>`: the first `n` bits of the digits, most significant bit of the first digit first; `none` unless
`n <= 4 * digits`. -/
def expandBits (digits : List (BitVec 4)) (n : Nat) : Option (List Instr) :=
  if n ≤ 4 * digits.length then
    some ((List.range n).map fun i => bitInstr ((digits.getD (i / 4) 0).getLsbD (3 - i % 4)))
  else none

/-- `IDLEBITS <n>, <b>`: `n` copies of `BIT <b>`. -/
def expandIdleBits (n : Nat) (b : Bool) : List Instr := List.replicate n (bitInstr b)

/-- `PERIOD <cach>, <burst>`: the 24 bits of six digits, then the 264 bits of 66 digits. -/
def expandPeriod (cach burst : List (BitVec 4)) : Option (List Instr) :=
  if cach.length = 6 ∧ burst.length = 66 then
    match expandBits cach 24, expandBits burst 264 with
    | some first, some second => some (first ++ second)
    | _, _ => none
  else none

/-! ### Tokens of a line -/

/-- A hex digit, of either case. DESIGN CHOICE, notes/assumptions/13.md: safe. -/
def hexDigit (c : Char) : Option (BitVec 4) :=
  let v := c.toNat
  if 48 ≤ v ∧ v ≤ 57 then some (BitVec.ofNat 4 (v - 48))
  else if 65 ≤ v ∧ v ≤ 70 then some (BitVec.ofNat 4 (v - 55))
  else if 97 ≤ v ∧ v ≤ 102 then some (BitVec.ofNat 4 (v - 87))
  else none

/-- A hex string: every character a hex digit, at least one. -/
def hexDigits (cs : List Char) : Option (List (BitVec 4)) := if cs = [] then none else cs.mapM hexDigit

/-- Digits in pairs, the most significant nibble first; `none` for an odd number. -/
def pairNibbles : List (BitVec 4) → Option (List Byte)
  | [] => some []
  | [_] => none
  | h :: l :: rest => (pairNibbles rest).map fun bytes => (h ++ l) :: bytes

/-- Exactly `n` operand bytes written as `2 n` hex digits. -/
def hexBytes (n : Nat) (cs : List Char) : Option (List Byte) :=
  (hexDigits cs).bind fun digits => if digits.length = 2 * n then pairNibbles digits else none

/-- A decimal number: one or more digits, without sign or prefix, leading zeros allowed (`BIT 01` is `BIT 1`). R117 gives
only the ranges of the operands. DESIGN CHOICE, notes/assumptions/13.md: safe. -/
def decimal (cs : List Char) : Option Nat :=
  if cs = [] ∨ ¬ cs.all Char.isDigit then none
  else some (cs.foldl (fun acc c => 10 * acc + (c.toNat - 48)) 0)

/-- A decimal number below `bound`. -/
def decimalBelow (bound : Nat) (cs : List Char) : Option Nat := (decimal cs).filter fun value => decide (value < bound)

/-- A one-bit operand: `0` or `1`. -/
def bitOperand (cs : List Char) : Option Bool := (decimalBelow 2 cs).map (· == 1)

/-- A named operand `<name>=<text>`: the text after the name. -/
def namedOperand (name cs : List Char) : Option (List Char) :=
  if cs.take (name.length + 1) = name ++ ['='] then some (cs.drop (name.length + 1)) else none

/-- The text without spaces at its two ends; a space is the character `' '` alone. DESIGN CHOICE,
notes/assumptions/13.md: safe. -/
def trimSpaces (cs : List Char) : List Char :=
  ((cs.dropWhile (· == ' ')).reverse.dropWhile (· == ' ')).reverse

/-- The operands of a line: split at commas, without spaces at their ends. -/
def splitCommas : List Char → List (List Char)
  | [] => [[]]
  | c :: cs =>
    match splitCommas cs with
    | [] => [[c]]
    | first :: rest => if c = ',' then [] :: first :: rest else (c :: first) :: rest

/-- The operands of a line with its mnemonic taken: none for an empty remainder. -/
def operandsOf (cs : List Char) : List (List Char) :=
  if trimSpaces cs = [] then [] else (splitCommas cs).map trimSpaces

/-! ### Lines -/

/-- The operands of CONFIG: `mode=<0|1>, cc=<0..15>, delay=<0..255>`, in this order, reserved bits 0. DESIGN CHOICE (the order
and the reserved bits), notes/assumptions/13.md: safe. -/
def configLine (mode cc delay : List Char) : Option (List Instr) :=
  match (namedOperand ['m', 'o', 'd', 'e'] mode).bind bitOperand, (namedOperand ['c', 'c'] cc).bind (decimalBelow 16),
      (namedOperand ['d', 'e', 'l', 'a', 'y'] delay).bind (decimalBelow 256) with
  | some m, some c, some d => some [.config (BitVec.ofBool m) 0 (BitVec.ofNat 4 c) (BitVec.ofNat 8 d)]
  | _, _, _ => none

/-- The commands of a line, its mnemonic and its operands given; `none` for text that is no command of R117 or R118. -/
def lineCommands (mnemonic : List Char) (operands : List (List Char)) : Option (List Instr) :=
  match mnemonic, operands with
  | ['N', 'O', 'P'], [] => some [.nop]
  | ['R', 'E', 'S', 'E', 'T'], [] => some [.reset]
  | ['C', 'O', 'N', 'F', 'I', 'G'], [mode, cc, delay] => configLine mode cc delay
  | ['S', 'T', 'A', 'T', 'U', 'S'], [] => some [.status]
  | ['T', 'X', 'S', 'Y', 'N', 'C', '_', 'P', 'O', 'L', 'L'], [] => some [.txsyncPoll]
  | ['B', 'I', 'T'], [b] => (bitOperand b).map fun b => [bitInstr b]
  | ['B', 'P', 'T', 'C', '_', 'D', 'E', 'C', 'O', 'D', 'E'], [hex] =>
    (hexBytes 25 hex).map fun bytes => [.bptcDecode bytes]
  | ['R', 'S', '_', 'C', 'H', 'E', 'C', 'K'], [hex] => (hexBytes 12 hex).map fun bytes => [.rsCheck bytes]
  | ['L', 'C', '_', 'D', 'E', 'C', 'O', 'D', 'E'], [['V', 'H'], hex] =>
    (hexBytes 33 hex).map fun bytes => [.lcDecodeVh bytes]
  | ['L', 'C', '_', 'D', 'E', 'C', 'O', 'D', 'E'], [['T', 'L', 'C'], hex] =>
    (hexBytes 33 hex).map fun bytes => [.lcDecodeTlc bytes]
  | ['B', 'I', 'T', 'S'], [hex, n] =>
    match hexDigits hex, decimal n with
    | some digits, some n => expandBits digits n
    | _, _ => none
  | ['I', 'D', 'L', 'E', 'B', 'I', 'T', 'S'], [n, b] =>
    match decimal n, bitOperand b with
    | some n, some b => some (expandIdleBits n b)
    | _, _ => none
  | ['P', 'E', 'R', 'I', 'O', 'D'], [cach, burst] =>
    match hexDigits cach, hexDigits burst with
    | some cach, some burst => expandPeriod cach burst
    | _, _ => none
  | _, _ => none

/-- The commands of one line of a script (R117, R118): a comment starts at `;`, the mnemonic is the first word. A line with
nothing but a comment gives no command. DESIGN CHOICE, notes/assumptions/13.md: safe. -/
def scriptLine (line : List Char) : Option (List Instr) :=
  let text := trimSpaces (line.takeWhile (· != ';'))
  if text = [] then some []
  else lineCommands (text.takeWhile (· != ' ')) (operandsOf (text.dropWhile (· != ' ')))

/-- The command bytes of a script, in order; `none` if a line is no command. -/
def scriptBytes (lines : List (List Char)) : Option (List Byte) :=
  (lines.mapM scriptLine).map fun commands => (commands.flatMap id).flatMap encode

end Sys2Proof.Machine
end

