-- ==== Sys2Proof/Tests/Slice0.lean ====
section
/-! SUPPORT. Tests. Expected results are the vectors of spec/95_test_vectors.md (named B.1, F.4, … in the comments), or
tables and encodings of the rules; the last section shows, for every statement that has hypotheses, that they are met. -/

namespace Sys2Proof.Tests

open Sys2Proof Sys2Proof.Machine Sys2Proof.Config

set_option Elab.async false

/-- The state an outcome answers, if it is a next state. -/
def answer : Host.Outcome State Fault Refusal → Option State
  | .next t => some t
  | .fault _ => none
  | .refused _ => none

/-- The payload of the last response after a command. -/
def reply (i : Instr) (s : State) : Option Response := (answer (exec i s)).bind fun t => t.responses.getLast?

/-- The response OK with this payload, as an answer. -/
def ok (payload : List Byte) : Option Response := some { status := 0x00, payload := payload }

/-! ### WellFormed: each length check refuses a term -/

theorem test_illformed_bptc : (Instr.bptcDecode (List.replicate 24 0)).wellFormed = false ∧
    (Instr.bptcDecode (List.replicate 26 0)).wellFormed = false := by decide

theorem test_illformed_rs : (Instr.rsCheck (List.replicate 11 0)).wellFormed = false ∧
    (Instr.rsCheck (List.replicate 13 0)).wellFormed = false := by decide

theorem test_illformed_lc_vh : (Instr.lcDecodeVh (List.replicate 32 0)).wellFormed = false ∧
    (Instr.lcDecodeVh (List.replicate 34 0)).wellFormed = false := by decide

theorem test_illformed_lc_tlc : (Instr.lcDecodeTlc (List.replicate 32 0)).wellFormed = false ∧
    (Instr.lcDecodeTlc (List.replicate 34 0)).wellFormed = false := by decide

/-! ### Decode: a word of every row of R110, written out bit by bit -/

theorem test_decode_nop : decode [0b00000000] = .command .nop [] := by decide

theorem test_decode_reset : decode [0b00000001, 7] = .command .reset [7] := by decide

/-- R111: mode 1, reserved 101, colour code 0110; delay 0x2A. -/
theorem test_decode_config : decode [0b00000010, 0b1_101_0110, 0x2A] = .command (.config 1 0b101 0b0110 0x2A) [] := by decide

theorem test_decode_status : decode [0b00000011] = .command .status [] := by decide

theorem test_decode_txsync : decode [0b00000100] = .command .txsyncPoll [] := by decide

/-- R110: the BIT opcode is 0001 000b. -/
theorem test_decode_bits : decode [0b00010000, 0b00010001] = .command .bit0 [0b00010001] ∧
    decode [0b00010001] = .command .bit1 [] := by decide

theorem test_decode_bptc : decode (0b00100000 :: List.replicate 24 0xA5 ++ [0x0F, 0x03]) =
    .command (.bptcDecode (List.replicate 24 0xA5 ++ [0x0F])) [0x03] := by decide

theorem test_decode_rs : decode (0b00100001 :: [1, 2, 3, 4, 5, 6, 7, 8, 9, 10, 11, 12]) =
    .command (.rsCheck [1, 2, 3, 4, 5, 6, 7, 8, 9, 10, 11, 12]) [] := by decide

/-- R110: the LC_DECODE opcode is 0010 001k. -/
theorem test_decode_lc : decode (0b00100010 :: List.replicate 33 0x11) = .command (.lcDecodeVh (List.replicate 33 0x11)) [] ∧
    decode (0b00100011 :: List.replicate 33 0x11) = .command (.lcDecodeTlc (List.replicate 33 0x11)) [] := by decide

/-- R115: the first and last opcode of each illegal range. -/
theorem test_decode_illegal : ∀ o ∈ [0x05, 0x0F, 0x12, 0x1F, 0x24, 0xFF],
    decode [BitVec.ofNat 8 o, 0x00] = .illegalOpcode (BitVec.ofNat 8 o) [0x00] := by decide

/-- G.6: an opcode with too few operand bytes. -/
theorem test_decode_incomplete : decode (0x20 :: List.replicate 10 0) = .incomplete := by decide

/-- The numbering of spec/opcode_table.json: the first byte is bits 7–0. -/
theorem test_table_words : decodeTableWord 24 0x078F02 = some (.config 1 0 15 7) ∧ decodeTableWord 8 0x11 = some .bit1 ∧
    decodeTableWord 8 0x05 = none ∧ decodeTableWord 8 0x21 = some (.rsCheck (List.replicate 12 0)) := by decide

theorem test_fetch_word : (answer (step (State.reset.withFetchWord 8 0x10))).map (fun t => (t.ptr, t.input)) =
    some (1, []) := by decide +kernel

/-- R117, R118. -/
theorem test_script : scriptLine "CONFIG mode=1, cc=15, delay=7 ; flywheel".toList = some [.config 1 0 15 7] ∧
    scriptLine "BITS A5, 6".toList = some [.bit1, .bit0, .bit1, .bit0, .bit0, .bit1] ∧
    scriptLine "BITS A5, 9".toList = none ∧ scriptLine "IDLEBITS 2, 1".toList = some [.bit1, .bit1] := by decide +kernel

/-! ### Parameters and fixed tables -/

theorem test_params_legal : params.Legal := by decide +kernel

/-- The first entry and the entries that wrap 0x11D in the table of R172, and the last. -/
theorem test_exp_table : gexp params 0 = 0x01 ∧ gexp params 8 = 0x1D ∧ gexp params 127 = 0xCC ∧ gexp params 254 = 0x8E ∧
    gexp params 255 = 0x01 := by decide +kernel

/-- R133: PERM[15] = 195, PERM[16] = 12, PERM[195] = 183: the input bit that is set is read there and nowhere else. -/
theorem test_perm : (deinterleave params (BitVec.twoPow 196 195)) = BitVec.twoPow 196 15 ∧
    (deinterleave params (BitVec.twoPow 196 12)) = BitVec.twoPow 196 16 ∧
    (deinterleave params (BitVec.twoPow 196 183)) = BitVec.twoPow 196 195 := by decide +kernel

/-! ### Control commands -/

/-- G.2. -/
theorem test_nop : reply .nop State.reset = ok [] := by decide +kernel

/-- G.3: `02 FF 07` then `03`; the reserved bits read as 0. -/
theorem test_config_status : (answer (exec (.config 1 7 15 7) State.reset)).bind (reply .status) =
    ok [0x8F, 0x07, 0, 0, 0, 0, 0, 0, 0, 0x07, 0] := by decide +kernel

/-- R321: RESET keeps the configuration and the events and reloads `DELAYCNT`. -/
theorem test_reset : (answer (exec .reset { State.reset with cfgDelay := 9, ptr := 100, events := [.lost .one] })).map
    (fun t => (t.delayCnt, t.ptr, t.cfgDelay, t.events)) = some (9, 0, 9, [.lost .one]) := by decide +kernel

/-- R113: every field of STATUS at a distinct value. -/
theorem test_status : reply .status
    { State.reset with
      cfgCc := 5, cfgDelay := 0x33, ptr := 0x23F, delayCnt := 0x21, locked := true, curSlot := .one, slotTimer := 0x11F,
      misMatch := 1, noSync := 0x3A, bsSync := true
      slot0 := { SlotRec.reset with st := .data, n := 2, miss := 7 }
      slot1 := { SlotRec.reset with st := .voice, n := 5, miss := 12 } } =
    ok [0x05, 0x33, 0xF6, 0x47, 0xAC, 0x02, 0x3F, 0x01, 0x1F, 0x21, 0x3A] := by decide +kernel

/-- G.7: `04`, `04`. -/
theorem test_txsync : reply .txsyncPoll { State.reset with bsSync := true } = ok [0x01] ∧
    (answer (exec .txsyncPoll { State.reset with bsSync := true })).bind (reply .txsyncPoll) = ok [0x00] := by
  decide +kernel

/-- R324: power-up is *AfterReset* of the zero configuration with no event. -/
theorem test_afterReset : State.afterReset .duplex 0 0 [] = State.reset := by decide +kernel

/-! ### Runs -/

/-- What a run of these bytes from power-up shows: its responses, and the bytes left unperformed. -/
def runShows (bytes : List Byte) : Option (List Response × List Byte) :=
  (answer (run bytes State.reset)).map fun t => ((observe State.reset t).responses, (observe State.reset t).final.input)

/-- G.5: illegal opcodes are commands of a run, each answered 0xFF. -/
theorem test_run_illegal_opcodes : runShows [0x05, 0x00, 0x24, 0xFF] =
    some ([⟨0xFF, []⟩, ⟨0x00, []⟩, ⟨0xFF, []⟩, ⟨0xFF, []⟩], []) := by decide +kernel

/-- G.6: a command that ends the input incomplete is not part of the run. -/
theorem test_run_incomplete_end : runShows (0x20 :: List.replicate 10 0) = some ([], 0x20 :: List.replicate 10 0) := by
  decide +kernel

/-! ### Decoders -/

/-- B.1's operand: the coded block of the reference record. -/
def blockB1 : List Byte :=
  [0x13, 0xC0, 0xC8, 0x19, 0x00, 0x71, 0x80, 0x00, 0x3E, 0x80, 0x19, 0x05, 0xA8, 0x5A, 0x83, 0x44, 0x10, 0xE0, 0xB9, 0x87,
    0x18, 0x13, 0xC0, 0x19, 0x00]

/-- B.3: one error in every data row. -/
theorem test_bptc_corrects : reply (.bptcDecode
    [0x13, 0xC4, 0xE8, 0x19, 0x02, 0x71, 0x80, 0x01, 0x3E, 0x80, 0x19, 0x85, 0xA8, 0x5A, 0xC3, 0x44, 0x10, 0xC0, 0xB9, 0x87,
      0x08, 0x13, 0xC0, 0x11, 0x00]) State.reset =
    ok [0x00, 0x00, 0x00, 0x00, 0x00, 0x09, 0x31, 0x21, 0xF1, 0x4C, 0x15, 0x27] := by decide +kernel

/-- B.6 and B.7: a column whose syndrome selects a virtual bit is left alone; a square of errors is miscorrected. -/
theorem test_bptc_virtual_bits : reply (.bptcDecode
    [0x13, 0xC0, 0xC8, 0x19, 0x00, 0x71, 0x80, 0x00, 0x3E, 0x81, 0x39, 0x05, 0xA8, 0x5A, 0x83, 0x44, 0x10, 0xE0, 0xB9, 0x87,
      0x18, 0x13, 0xC0, 0x19, 0x00]) State.reset =
    ok [0x00, 0x00, 0x00, 0x00, 0x00, 0x09, 0x31, 0x21, 0xF1, 0x4C, 0x15, 0x27] ∧
  reply (.bptcDecode
    [0x13, 0xC0, 0xC8, 0xD9, 0x06, 0x71, 0x80, 0x00, 0x3E, 0x80, 0x19, 0x05, 0xA8, 0x5A, 0x83, 0x44, 0x10, 0xE0, 0xB9, 0x87,
      0x18, 0x13, 0xC0, 0x19, 0x00]) State.reset =
    ok [0x00, 0x0C, 0x01, 0x80, 0x00, 0x09, 0x31, 0x21, 0xF1, 0x4C, 0x15, 0x27] := by decide +kernel

/-- C.1. -/
theorem test_rs_valid : reply (.rsCheck [1, 2, 3, 4, 5, 6, 7, 8, 9, 0xAA, 0x04, 0xAF]) State.reset = ok [0x01] := by
  decide +kernel

/-- C.3: the codeword of the roots of the alternative `RS_B = 1`. -/
theorem test_rs_other_roots :
    reply (.rsCheck [1, 2, 3, 4, 5, 6, 7, 8, 9, 0xBC, 0x70, 0x1F]) State.reset = ok [0x00] ∧
    rsValid { params with rsB := 1 } [1, 2, 3, 4, 5, 6, 7, 8, 9, 0xBC, 0x70, 0x1F] = true := by decide +kernel

/-- The burst VH1 of Part D. -/
def burstVh1 : List Byte :=
  [0x13, 0xC0, 0xC8, 0x19, 0x00, 0x71, 0x80, 0x00, 0x3E, 0x80, 0x19, 0x05, 0x84, 0x4D, 0xFF, 0x57, 0xD7, 0x5D, 0xF5, 0xD0,
    0x02, 0x85, 0xA8, 0x34, 0x41, 0x0E, 0x0B, 0x98, 0x71, 0x81, 0x3C, 0x01, 0x90]

/-- D.1. -/
theorem test_lc_parity : reply (.lcDecodeVh burstVh1) State.reset = ok [0x01, 0, 0, 0, 0, 0, 9, 0x31, 0x21, 0xF1] := by
  decide +kernel

/-- D.3: FLCO 5 with failing parity. -/
theorem test_lc_reject : reply (.lcDecodeVh
    [0x77, 0xC0, 0xC8, 0x19, 0x00, 0xDD, 0x83, 0x20, 0x02, 0x83, 0x89, 0x0F, 0xC4, 0x4D, 0xFF, 0x57, 0xD7, 0x5D, 0xF5, 0xD0,
      0x00, 0x8E, 0x88, 0x21, 0xC1, 0x6A, 0x0E, 0xF8, 0x68, 0x82, 0xD4, 0x1F, 0x91]) State.reset =
    ok (List.replicate 10 0) := by decide +kernel

/-- D.6: the wrong mask. -/
theorem test_lc_fallback : reply (.lcDecodeTlc burstVh1) State.reset = ok [0x02, 0, 0, 0, 0, 0, 9, 0x31, 0x21, 0xF1] := by
  decide +kernel

/-! ### BIT: one bit on a small state -/

/-- E.1 and E.2: the last bit of a sync field with three errors frames slot 0 and sets `BSSYNC`; four errors are no match. -/
theorem test_bit_sync :
    (answer (exec .bit1 { State.reset with ptr := 179, pat := 0x2DEABEBAEFAE })).map
      (fun t => (t.slot0.endPos, t.slot0.kind, t.bsSync, t.ptr)) = some (some 287, .data, true, 180) ∧
    (answer (exec .bit1 { State.reset with ptr := 179, pat := 0x2DEA3EBAEFAE })).map
      (fun t => (t.slot0.endPos, t.bsSync)) = some (none, false) := by decide +kernel

/-- The state before the last bit of `PERIOD 000000, VH1` in F.1. -/
def beforeHeaderEnd : State :=
  { State.reset with
    cfgCc := 1, ptr := 287
    buf := ofBits 576 fun i => decide (24 ≤ i ∧ i < 288) && stringBit burstVh1 (i - 24)
    slot0 := { SlotRec.reset with endPos := some 287, expSync := some 179, seen := true } }

/-- F.1: the header completes: `BURST`, then `LC`, slot 0 in VOICE at position 5, `ACTIVE`. -/
theorem test_bit_header : (answer (exec .bit0 beforeHeaderEnd)).map (fun t => (t.events, t.slot0.st, t.slot0.n)) =
      some ([.burst .zero 0x41 burstVh1,
        .lc .zero .vh .parity { pf := 0, r := 0, flco := 0, fid := 0, so := 0, dst := 9, src := 0x3121F1 }], .voice, 5) ∧
    reply .bit0 beforeHeaderEnd = ok [0x01] := by decide +kernel

/-- F.4: the CACH `08 04 44` names slot 1; `SLOTTIMER` reads 180 after the locking bit. -/
theorem test_bit_lock : (answer (exec .bit1
    { State.reset with
      cfgMode := .single, ptr := 179, pat := 0x6FFABEBAEFAE
      buf := ofBits 576 fun i => decide (i < 24) && stringBit [0x08, 0x04, 0x44] i })).map
    (fun t => (t.locked, t.curSlot, t.slotTimer, t.slot1.endPos)) = some (true, .one, 180, some 287) := by decide +kernel

/-- G.8 to G.14: the slot indicator of seven CACH fields. -/
theorem test_tact : [[0x00, 0x00, 0x00], [0x08, 0x04, 0x44], [0x88, 0x04, 0x44], [0x00, 0x04, 0x44], [0x08, 0x04, 0x40],
      [0x08, 0x00, 0x00], [0x80, 0x04, 0x44]].map (fun cach => tactSlot params (ofBits 576 (stringBit cach)) 0) =
    [.zero, .one, .one, .one, .one, .zero, .zero] := by decide +kernel

/-- F.2, the 13th miss of a voice call: the predicted frame, then `LOST`; `BUF` cleared, the cursor kept. F.7, period 2:
the second disagreement exchanges the records. -/
theorem test_bit_period_end :
    (answer (exec .bit0
      { State.reset with
        ptr := 287, buf := 1
        slot0 := { SlotRec.reset with st := .voice, n := 5, miss := 12, endPos := some 287, expSync := some 179 } })).map
      (fun t => (t.events, t.slot0, t.buf, t.ptr)) =
      some ([.burst .zero 0x20 (List.replicate 33 0), .lost .zero], SlotRec.reset, 0, 288) ∧
    (answer (exec .bit0
      { State.reset with
        cfgMode := .single, locked := true, slotTimer := 287, ptr := 287, misMatch := 1, noSync := 1
        buf := ofBits 576 fun i => decide (i < 24) && stringBit [0x08, 0x04, 0x44] i
        slot0 := { SlotRec.reset with st := .voice, miss := 1, endPos := some 575, expSync := some 467 } })).map
      (fun t => (t.curSlot, t.misMatch, t.slot0.st, t.slot1.st, t.noSync)) = some (.zero, 0, .idle, .voice, 2) := by
  decide +kernel

/-! ### Witnesses: the hypotheses of each statement are met, each clause at a boundary value -/

/-- The last command of a stream, and one followed by a byte. -/
theorem test_witness_StepRunsDecodedCommand :
    decode ({ State.reset with input := [0x02, 0xFF, 0x07] } : State).input = .command (.config 1 7 15 7) [] ∧
    decode ({ State.reset with input := [0x11, 0x05] } : State).input = .command .bit1 [0x05] := by decide

/-- One operand byte missing of 25, and an empty stream. -/
theorem test_witness_IncompleteCommandIsNotPerformed :
    (Instr.bptcDecode (List.replicate 25 0)).wellFormed = true ∧ ([0] : List Byte) ≠ [] ∧
    encode (.bptcDecode (List.replicate 25 0)) = (0x20 :: List.replicate 24 0) ++ [0] ∧
    encode .nop = State.reset.input ++ [0x00] := by decide

/-- The two ends of each range. -/
theorem test_witness_IllegalOpcodeRespondsOnly : ∀ o ∈ ([0x05, 0x0F, 0x12, 0x1F, 0x24, 0xFF] : List Byte),
    (0x05 ≤ o.toNat ∧ o.toNat ≤ 0x0F ∨ 0x12 ≤ o.toNat ∧ o.toNat ≤ 0x1F ∨ 0x24 ≤ o.toNat) ∧
    ({ State.reset with input := [o, 0x00] } : State).input = o :: [0x00] := by decide

theorem test_witness_OpcodeFixesOperandLength :
    decode (0x23 :: List.replicate 33 0) = .command (.lcDecodeTlc (List.replicate 33 0)) [] ∧
    decode [0x00] = .command .nop [] ∧
    (0x24 : Byte).toNat ∉ [0x00, 0x01, 0x02, 0x03, 0x04, 0x10, 0x11, 0x20, 0x21, 0x22, 0x23] ∧
    (0x05 : Byte).toNat ∉ [0x00, 0x01, 0x02, 0x03, 0x04, 0x10, 0x11, 0x20, 0x21, 0x22, 0x23] := by decide

theorem test_witness_DecodeOfEncodeIsTheCommand : (Instr.config 1 7 15 255).wellFormed = true ∧
    (Instr.rsCheck (List.replicate 12 0xFF)).wellFormed = true := by decide

theorem test_witness_DecodedBytesAreTheEncoding :
    decode [0x02, 0x7F, 0xFF, 0x05] = .command (.config 0 7 15 255) [0x05] := by decide

/-- A command, the step of a command with a byte after it, of an illegal opcode, and of a command still incomplete. -/
theorem test_witness_EveryCommandAppendsOneResponse :
    (∃ t, exec .status State.reset = .next t) ∧
    (∃ t, step { State.reset with input := [0x03, 0x05] } = .next t) ∧ decode [0x03, 0x05] = .command .status [0x05] ∧
    (∃ t, step { State.reset with input := [0xFF] } = .next t) ∧ decode [0xFF] = .illegalOpcode 0xFF [] ∧
    (∃ t, step { State.reset with input := [0x02, 0x00] } = .next t) ∧ decode [0x02, 0x00] = .incomplete :=
  ⟨⟨_, rfl⟩, ⟨_, rfl⟩, by decide, ⟨_, rfl⟩, by decide, ⟨_, rfl⟩, by decide⟩

/-- Two resets in a row from a state that is not the reset state. -/
theorem test_witness_ResetClearsReceiveState :
    ∃ t u, exec .reset { State.reset with cfgDelay := 255, ptr := 575 } = .next t ∧ exec .reset t = .next u :=
  ⟨_, _, rfl, rfl⟩

/-- `MISMATCH` at 0 and at 1. -/
theorem test_witness_StatusReportsTheState : State.reset.misMatch.toNat ≤ 1 ∧
    ({ State.reset with misMatch := 1 } : State).misMatch.toNat ≤ 1 := by decide

theorem test_witness_TxsyncPollReadsAndClears :
    ∃ t, exec .txsyncPoll { State.reset with bsSync := true } = .next t := ⟨_, rfl⟩

theorem test_witness_OnlyConfigWritesConfiguration :
    (∃ t, step { State.reset with input := [0x02, 0x8F, 0x07] } = .next t ∧ t.cfgCc = 15) ∧
    (∃ t, step { State.reset with input := [0x01] } = .next t ∧ t.cfgCc = 0) := ⟨⟨_, rfl, rfl⟩, ⟨_, rfl, rfl⟩⟩

theorem test_witness_InterleavedCommandsKeepReceiveState :
    (∃ t, exec .txsyncPoll { State.reset with bsSync := true } = .next t) ∧
    Instr.txsyncPoll ∉ [Instr.bit0, Instr.bit1, Instr.reset] ∧
    (∀ mode rsv cc delay, Instr.txsyncPoll ≠ .config mode rsv cc delay) ∧ Instr.status ≠ .txsyncPoll ∧
    decode ({ State.reset with input := [0xFF] } : State).input = .illegalOpcode 0xFF [] ∧
    (∃ t, step { State.reset with input := [0xFF] } = .next t) :=
  ⟨⟨_, rfl⟩, by decide, fun _ _ _ _ h => Instr.noConfusion h, by decide, by decide, ⟨_, rfl⟩⟩

/-- The cursor at 575 wraps; CONFIG resets it. -/
theorem test_witness_CursorAdvancesOrResets :
    (answer (exec .bit0 { State.reset with ptr := 575 })).map (·.ptr) = some 0 ∧
    (answer (exec (.config 0 0 0 0) { State.reset with ptr := 575 })).map (·.ptr) = some 0 := by decide +kernel

theorem test_witness_EventsAreOnlyAppendedByBits :
    (∃ t, exec .bit0 beforeHeaderEnd = .next t) ∧ (∃ t, exec .nop beforeHeaderEnd = .next t) ∧
    Instr.nop ≠ .bit0 ∧ Instr.nop ≠ .bit1 := ⟨⟨_, rfl⟩, ⟨_, rfl⟩, by decide, by decide⟩

/-- A duplex receiver in a voice call one miss before its loss, with a BIT to perform, meets the invariant. -/
theorem test_witness_EveryStepKeepsInvariant :
    let s : State := { State.reset with
      ptr := 575, input := [0x10], bsSync := true
      slot0 := { SlotRec.reset with st := .voice, n := 5, miss := 12, endPos := some 287, expSync := some 179 } }
    s.Inv ∧ ∃ t, step s = .next t := by
  refine ⟨?_, _, rfl⟩
  constructor
  case slot0_inv => exact ⟨by decide, by decide, by decide, fun _ => ⟨179, by decide, rfl, rfl⟩, by decide⟩
  case slot1_inv => exact ⟨by decide, by decide, by decide, by decide, by decide⟩
  all_goals decide

theorem test_witness_HammingCorrectsOneFlip : IsCodeword 0 ∧ IsCodeword 0x7FFF ∧ IsCodeword 0b100100000000001 ∧ 14 < 15 := by
  decide

/-- The matrix of B.1. -/
def matrixB1 : Work := deinterleave params (bits 196 blockB1)

/-- The nine errors of B.3 and a wrong reserved bit. -/
def errorsB3 : Work := ofBits 196 fun k => k == 0 || (List.range 9).any fun r => cell r (2 * r % 15) == k

/-- The operand of that matrix with those errors. -/
def operandB3 : List Byte := bytesOf 25 (ofBits 200 fun i => i < 196 && (matrixB1 ^^^ errorsB3).getLsbD (181 * i % 196))

theorem test_witness_BptcCorrectsOneErrorPerUnit : operandB3.length = 25 ∧ IsBlock matrixB1 ∧
    OneErrorPerUnit errorsB3 ∧ (∀ k < 196, stringBit operandB3 (13 * k % 196) = (matrixB1.getLsbD k ^^ errorsB3.getLsbD k)) :=
  ⟨by decide +kernel, by decide +kernel, by constructor <;> decide +kernel, by decide +kernel⟩

/-- B.1 against B.1 with the reserved bit and operand bits 196–199 changed (B.8, B.9). -/
theorem test_witness_BptcIgnoresReservedBits :
    let b := 0x93 :: (blockB1.drop 1).take 23 ++ [0x0F]
    blockB1.length = 25 ∧ b.length = 25 ∧ b ≠ blockB1 ∧
      ∀ i, 1 ≤ i → i < 196 → stringBit blockB1 i = stringBit b i := by
  refine ⟨by decide, by decide, by decide, ?_⟩
  intro i h1 h2
  have h : ∀ i < 196, i = 0 ∨ stringBit blockB1 i = stringBit (0x93 :: (blockB1.drop 1).take 23 ++ [0x0F]) i := by
    decide +kernel
  exact (h i h2).resolve_left (by omega)

/-- A row and a column that are codewords, one flip away, and the column of B.6 (syndrome 0x9) and one with syndrome 0xB;
an operand of 25 bytes. -/
theorem test_witness_BptcRunsItsPasses :
    let W : Work := BitVec.twoPow 196 (cell 9 6) ||| BitVec.twoPow 196 (cell 12 6)
    let V : Work := BitVec.twoPow 196 (cell 9 6) ||| BitVec.twoPow 196 (cell 10 6) ||| BitVec.twoPow 196 (cell 12 6)
    (IsCodeword (rowWord 0 8) ∧ IsCodeword (flipBit (rowWord (BitVec.twoPow 196 (cell 8 14)) 8) 14)) ∧
    (IsCodeword (colWord 0 14) ∧ IsCodeword (flipBit (colWord (BitVec.twoPow 196 (cell 12 14)) 14) (2 + 12))) ∧
    checkBits (colWord W 6) = [true, false, false, true] ∧ checkBits (colWord V 6) = [true, true, false, true] ∧
    blockB1.length = 25 := by decide +kernel

theorem test_witness_RsCheckEvaluatesThePolynomial : (List.replicate 12 (0xFF : Byte)).length = 12 := by decide

/-- C.1, its first and its last byte changed. -/
theorem test_witness_RsRejectsOneWrongByte :
    let cw : List Byte := [1, 2, 3, 4, 5, 6, 7, 8, 9, 0xAA, 0x04, 0xAF]
    cw.length = 12 ∧ 0 < 12 ∧ 11 < 12 ∧ rsValid params cw = true ∧ cw.getD 0 0 ≠ 0 ∧ cw.getD 11 0 ≠ 0xAE := by
  decide +kernel

/-- C.1 with three bytes changed. -/
theorem test_witness_RsRejectsUpToThreeWrongBytes :
    let cw : List Byte := [1, 2, 3, 4, 5, 6, 7, 8, 9, 0xAA, 0x04, 0xAF]
    let cw' : List Byte := [0, 2, 3, 4, 5, 0xFF, 7, 8, 9, 0xAA, 0x04, 0xAE]
    cw.length = 12 ∧ cw'.length = 12 ∧ rsValid params cw = true ∧ cw' ≠ cw ∧
      ((List.range 12).filter fun i => cw'.getD i 0 != cw.getD i 0).length ≤ 3 := by decide +kernel

theorem test_witness_LcDecodeAcceptanceRule :
    let coded : Coded := ofBits 196 fun i => if i < 98 then stringBit burstVh1 i else stringBit burstVh1 (166 + (i - 98))
    burstVh1.length = 33 ∧
      ∀ i < 98, coded.getLsbD i = stringBit burstVh1 i ∧ coded.getLsbD (98 + i) = stringBit burstVh1 (166 + i) := by
  decide +kernel

/-- D.9: VH1 with bits 98–165 complemented. -/
theorem test_witness_LcDecodeReadsOnlyTheInformationBits :
    let b : List Byte :=
      [0x13, 0xC0, 0xC8, 0x19, 0x00, 0x71, 0x80, 0x00, 0x3E, 0x80, 0x19, 0x05, 0xBB, 0xB2, 0x00, 0xA8, 0x28, 0xA2, 0x0A, 0x2F,
        0xFE, 0x85, 0xA8, 0x34, 0x41, 0x0E, 0x0B, 0x98, 0x71, 0x81, 0x3C, 0x01, 0x90]
    burstVh1.length = 33 ∧ b.length = 33 ∧ b ≠ burstVh1 ∧
      ∀ i < 98, stringBit burstVh1 i = stringBit b i ∧ stringBit burstVh1 (166 + i) = stringBit b (166 + i) := by
  decide +kernel

theorem test_witness_LcRecordFields : 9 ≤ (List.replicate 9 (0xFF : Byte)).length := by decide

/-- The last bit to be discarded; a delay of 2 whose two bits are both dropped. -/
theorem test_witness_DelayedBitsAreDiscarded :
    ({ State.reset with delayCnt := 1 } : State).delayCnt ≠ 0 ∧
    (∃ t, exec (.config 0 0 0 2) State.reset = .next t ∧ [true, false].length ≤ t.cfgDelay.toNat) ∧
    (∃ t, exec .reset { State.reset with cfgDelay := 2 } = .next t ∧ [true, false].length ≤ t.cfgDelay.toNat) :=
  ⟨by decide, ⟨_, rfl, by decide⟩, ⟨_, rfl, by decide⟩⟩

theorem test_witness_AcceptedBitCompletes : ({ State.reset with ptr := 575 } : State).delayCnt = 0 := by decide

/-- A bit that is stored, one that ends in a duplex loss, and one that ends in an unlock. -/
theorem test_witness_AcceptedBitWritesOneBufferBit :
    beforeHeaderEnd.delayCnt = 0 ∧ (∃ t, exec (bitCommand false) beforeHeaderEnd = .next t) ∧
    (answer (exec (bitCommand true)
      { State.reset with
        buf := 1, slot0 := { SlotRec.reset with st := .data, miss := 12, endPos := some 0 } })).map
      (fun t => (t.buf, t.events)) = some (0, [.lost .zero]) ∧
    (answer (exec (bitCommand true)
      { State.reset with cfgMode := .single, locked := true, slotTimer := 287, noSync := 59, buf := 1 })).map
      (fun t => (t.buf, t.locked)) = some (0, false) :=
  ⟨by decide, ⟨_, rfl⟩, by decide +kernel, by decide +kernel⟩

/-- The last cursor position in duplex mode; the last bit before a slot period's end of a locked receiver. -/
theorem test_witness_QuietBitOnlyStoresTheBit :
    let s : State := { State.reset with ptr := 575 }
    let u : State := { s with cfgMode := .single, locked := true, slotTimer := 286 }
    (s.delayCnt = 0 ∧ syncFound params (storeBit true s) = none ∧ s.slot0.endPos ≠ some s.ptr ∧
      s.slot1.endPos ≠ some s.ptr ∧ s.cfgMode = .duplex) ∧
    (u.delayCnt = 0 ∧ syncFound params (storeBit true u) = none ∧ u.slot0.endPos ≠ some u.ptr ∧
      u.slot1.endPos ≠ some u.ptr ∧ u.slotTimer.toNat < 287) := by decide +kernel

/-- Distance exactly 3 from an inverted template, and exactly 4 from the nearest of all eight (E.1, E.2). -/
theorem test_witness_CorrelatorAcceptsWithinThree :
    (∃ t ∈ syncTable .single, t.2.inverted = true ∧ hammingDistance (~~~ 0x5BD57D75DF5D) t.1 = 3) ∧
    (∀ t ∈ syncTable .single, 4 ≤ hammingDistance 0x5BD47D75DF5D t.1) ∧
    (∃ t ∈ syncTable .duplex, hammingDistance 0x5BD47D75DF5D t.1 = 4) := by decide +kernel

/-- The window opens the gate at distance 2 and not at 3, from a call in both slots; an IDLE home slot opens it. -/
theorem test_witness_CorrelationGateRule :
    let call := fun p => ({ SlotRec.reset with st := .voice, expSync := some p } : SlotRec)
    (cdist 1 575 ≤ 2 ∧ gateOpen params { State.reset with ptr := 1, slot0 := call 575, slot1 := call 300 } = true) ∧
    (¬ cdist 2 575 ≤ 2 ∧ gateOpen params { State.reset with ptr := 2, slot0 := call 575, slot1 := call 300 } = false) ∧
    gateOpen params { State.reset with ptr := 288, slot0 := call 100 } = true ∧
    gateOpen params { State.reset with ptr := 287, slot0 := call 100 } = false := by decide +kernel

/-- The data-class base-station template completed by a bit 1. -/
def dataSyncComing : BitVec 64 := 0x6FFABEBAEFAE

/-- The cursor half at 287, its own `ENDPOS` due; slot 1's window two positions late; both windows, slot 0 first, with slot
1's period ending at this bit. -/
theorem test_witness_DuplexMatchFramesItsSlot :
    let m : SyncMatch := { role := .bs, cls := .data, inverted := false }
    let call := fun (e due : BitVec 10) => ({ SlotRec.reset with st := .voice, expSync := some e, endPos := some due } : SlotRec)
    let s : State := { State.reset with
      ptr := 287, pat := dataSyncComing, slot0 := { SlotRec.reset with expSync := some 179, endPos := some 287, seen := true } }
    let u : State := { State.reset with ptr := 287, pat := dataSyncComing, slot1 := call 285 393 }
    let v : State := { State.reset with ptr := 287, pat := dataSyncComing, slot0 := call 289 397, slot1 := call 287 287 }
    (s.delayCnt = 0 ∧ s.cfgMode = .duplex ∧ s.ptr.toNat < 576 ∧ syncFound params (storeBit true s) = some m ∧
      ¬ InWindow s.ptr s.slot0 ∧ ¬ InWindow s.ptr s.slot1 ∧ SlotId.zero = (if s.ptr.toNat < 288 then .zero else .one) ∧
      (s.slot .zero).endPos = some s.ptr ∧ (s.slot SlotId.zero.other).endPos ≠ some s.ptr) ∧
    (u.delayCnt = 0 ∧ u.cfgMode = .duplex ∧ syncFound params (storeBit true u) = some m ∧
      ¬ InWindow u.ptr u.slot0 ∧ InWindow u.ptr u.slot1 ∧ (u.slot SlotId.one.other).endPos ≠ some u.ptr) ∧
    (v.delayCnt = 0 ∧ v.cfgMode = .duplex ∧ syncFound params (storeBit true v) = some m ∧
      InWindow v.ptr v.slot0 ∧ InWindow v.ptr v.slot1 ∧ (v.slot SlotId.zero.other).endPos = some v.ptr) := by
  decide +kernel

/-- F.4's locking bit, with the other slot's period not ending at it and ending at it. -/
theorem test_witness_FirstMatchLocksTheFlywheel :
    let m : SyncMatch := { role := .bs, cls := .data, inverted := false }
    let s : State := { State.reset with
      cfgMode := .single, ptr := 179, pat := dataSyncComing
      buf := ofBits 576 fun i => decide (i < 24) && stringBit [0x08, 0x04, 0x44] i }
    let u : State := { s with slot0 := { SlotRec.reset with endPos := some 179 } }
    (s.delayCnt = 0 ∧ s.cfgMode = .single ∧ s.locked = false ∧ s.ptr.toNat < 576 ∧
      syncFound params (storeBit true s) = some m ∧
      SlotId.one = tactSlot params (storeBit true s).buf ((s.ptr.toNat + 576 - 179) % 576) ∧
      (s.slot SlotId.one.other).endPos ≠ some s.ptr) ∧
    (syncFound params (storeBit true u) = some m ∧ (u.slot SlotId.one.other).endPos = some u.ptr) := by decide +kernel

/-- A match on the last bit of a slot period: in slot 1's window while the current slot is 0; in no window; in slot 0's, with
slot 1's period ending at it. -/
theorem test_witness_LockedMatchRealignsTheFlywheel :
    let m : SyncMatch := { role := .bs, cls := .data, inverted := false }
    let call := fun (e due : BitVec 10) => ({ SlotRec.reset with st := .data, expSync := some e, endPos := some due } : SlotRec)
    let w : State := { State.reset with
      cfgMode := .single, locked := true, slotTimer := 287, ptr := 575, pat := dataSyncComing }
    let s : State := { w with slot1 := call 1 109 }
    let u : State := { w with slot0 := call 573 105, slot1 := call 467 575 }
    (s.delayCnt = 0 ∧ s.cfgMode = .single ∧ s.locked = true ∧ s.ptr.toNat < 576 ∧
      syncFound params (storeBit true s) = some m ∧ ¬ InWindow s.ptr s.slot0 ∧ InWindow s.ptr s.slot1 ∧
      (s.slot SlotId.one.other).endPos ≠ some s.ptr) ∧
    (syncFound params (storeBit true w) = some m ∧ ¬ InWindow w.ptr w.slot0 ∧ ¬ InWindow w.ptr w.slot1 ∧
      (w.slot w.curSlot.other).endPos ≠ some w.ptr) ∧
    (syncFound params (storeBit true u) = some m ∧ InWindow u.ptr u.slot0 ∧
      (u.slot SlotId.zero.other).endPos = some u.ptr) := by decide +kernel

/-- G.12: the last TACT bit of `08 04 44` wrong, the CACH wrapping past the end of the buffer. -/
theorem test_witness_TactSlotSurvivesOneWrongBit :
    let t : BitVec 7 := 0b1110010
    let buf : Buf := ofBits 576 fun i => decide ((i + 6) % 576 < 24) && stringBit [0x08, 0x04, 0x40] ((i + 6) % 576)
    t.getLsbD 4 = (t.getLsbD 0 ^^ t.getLsbD 1 ^^ t.getLsbD 2) ∧ t.getLsbD 5 = (t.getLsbD 1 ^^ t.getLsbD 2 ^^ t.getLsbD 3) ∧
      t.getLsbD 6 = (t.getLsbD 0 ^^ t.getLsbD 1 ^^ t.getLsbD 3) ∧
      ∀ j < 7, buf.getLsbD ((570 + [0, 4, 8, 12, 13, 17, 21].getD j 0) % 576) = (t.getLsbD j ^^ decide (j = 6)) := by
  decide +kernel

/-- No slot due, one, and both; and a locked receiver at a slot period's end. -/
theorem test_witness_BitWithoutSyncCompletesDueSlots :
    let both : State := { State.reset with
      ptr := 287, slot0 := { SlotRec.reset with endPos := some 287 }, slot1 := { SlotRec.reset with endPos := some 287 } }
    let single : State := { both with cfgMode := .single, locked := true, slotTimer := 287 }
    (State.reset.delayCnt = 0 ∧ syncFound params (storeBit false State.reset) = none) ∧
    (beforeHeaderEnd.delayCnt = 0 ∧ syncFound params (storeBit false beforeHeaderEnd) = none ∧
      beforeHeaderEnd.slot0.endPos = some beforeHeaderEnd.ptr ∧ beforeHeaderEnd.slot1.endPos ≠ some beforeHeaderEnd.ptr) ∧
    (both.delayCnt = 0 ∧ syncFound params (storeBit false both) = none ∧ both.slot0.endPos = some both.ptr ∧
      both.slot1.endPos = some both.ptr) ∧
    (single.delayCnt = 0 ∧ syncFound params (storeBit false single) = none) := by decide +kernel

theorem test_witness_BurstIsTheLast264Bits : 263 < 264 := by decide

/-- A voice-sync burst of an IDLE slot, and of one in a call. -/
theorem test_witness_VoiceSyncBurstCompletion :
    let r : SlotRec := { SlotRec.reset with seen := true, kind := .voice, endPos := some 287, expSync := some 179 }
    (({ State.reset with slot1 := r } : State).slot .one).seen = true ∧
    (({ State.reset with slot1 := r } : State).slot .one).kind = .voice ∧
    (({ State.reset with slot0 := { r with st := .voice } } : State).slot .zero).kind = .voice := by decide

/-- Colour code 0 received, 1 configured: an IDLE slot, and a call with `MISS` 11 and 12. -/
theorem test_witness_ColourCodeMismatchIsDiscarded :
    let s := fun (st : CallState) (miss : BitVec 5) =>
      ({ State.reset with cfgCc := 1, slot0 := { SlotRec.reset with st := st, seen := true, miss := miss } } : State)
    ∀ x ∈ [s .idle 0, s .data 11, s .voice 12], x.cfgMode = .duplex ∧ (x.slot .zero).seen = true ∧
      (x.slot .zero).kind = .data ∧ (classifyDefault (assemble x.buf x.ptr (x.slot .zero).inv)).1 ≠ x.cfgCc ∧
      ((x.slot .zero).st = .idle ∨ (x.slot .zero).miss.toNat + 1 < 13 ∨ (x.slot .zero).miss.toNat + 1 = 13) := by
  decide +kernel

/-- VH1: data type 1, a voice-LC header; and single-radio mode, which accepts any colour code. -/
theorem test_witness_AcceptedDataSyncCompletion :
    let s := beforeHeaderEnd
    (s.slot .zero).seen = true ∧ (s.slot .zero).kind = .data ∧
      (classifyDefault (assemble s.buf s.ptr (s.slot .zero).inv)) = (1, 1) ∧ s.cfgCc = 1 ∧
      ({ s with cfgMode := .single, cfgCc := 9 } : State).cfgMode = .single := by decide +kernel

/-- Positions 4 and 5 of a voice call and a data call, one miss below the thresholds. -/
theorem test_witness_MissedPeriodOfACall :
    let v : SlotRec := { SlotRec.reset with st := .voice, n := 5, miss := 11 }
    let s : State := { State.reset with slot0 := v, slot1 := { v with n := 4 } }
    let d : State := { s with cfgMode := .single, slot0 := { v with st := .data, miss := 28 } }
    (s.slot .zero).seen = false ∧ (s.slot .zero).miss.toNat + 1 < 13 ∧ (s.slot .zero).st = .voice ∧
      (s.slot .one).seen = false ∧ (s.slot .one).st = .voice ∧ (s.slot .one).miss.toNat + 1 < 13 ∧
      (d.slot .zero).seen = false ∧ (d.slot .zero).st = .data ∧ (d.slot .zero).miss.toNat + 1 < 30 := by decide

theorem test_witness_MissedPeriodOfAnIdleSlot :
    (State.reset.slot .one).seen = false ∧ (State.reset.slot .one).st = .idle := by decide

/-- The 13th miss in duplex mode and the 30th in single-radio mode. -/
theorem test_witness_SyncLossAtTheThreshold :
    let s : State := { State.reset with slot0 := { SlotRec.reset with st := .voice, miss := 12 } }
    let u : State := { State.reset with cfgMode := .single, slot1 := { SlotRec.reset with st := .data, miss := 29 } }
    (s.slot .zero).seen = false ∧ (s.slot .zero).st ≠ .idle ∧ (s.slot .zero).miss.toNat + 1 = 13 ∧
      (u.slot .one).seen = false ∧ (u.slot .one).st ≠ .idle ∧ (u.slot .one).miss.toNat + 1 = 30 := by decide

/-- Zero bits find no sync while `PAT` is 0. -/
theorem noSyncRun_zeros (n : Nat) (s : State) (h : s.pat = 0) : NoSyncRun (List.replicate n false) s := by
  induction n generalizing s with
  | zero => trivial
  | succ n ih =>
    have hp : (storeBit false s).pat = 0 := by simp [h]
    have hc : ∀ mode : Mode, corr params mode ((0 : BitVec 64).setWidth 48) = none := by
      intro mode
      cases mode <;> decide +kernel
    refine ⟨?_, ih _ ?_⟩
    · unfold syncFound
      rw [hp, hc]
      simp
    · obtain ⟨-, hr⟩ | ⟨-, hr⟩ := receiveBit_cases params false s <;> rw [hr]
      · simpa using h
      · exact (acceptBit_pat params false s).elim (fun h => h.trans hp) id

/-- A receiver with a voice call and no miss in slot 0, and a call with one miss in slot 1. -/
def callState (mode : Mode) : State :=
  { State.reset with
    cfgMode := mode, locked := decide (mode = .single)
    slot0 := { SlotRec.reset with st := .voice, expSync := some 179, endPos := some 287 }
    slot1 := { SlotRec.reset with st := .data, miss := 1, expSync := some 467, endPos := some 575 } }

theorem callState_inv (mode : Mode) : (callState mode).Inv := by
  constructor
  case slot0_inv =>
    cases mode <;> exact ⟨by decide, by decide, by decide, fun _ => ⟨179, by decide, rfl, rfl⟩, by decide⟩
  case slot1_inv =>
    cases mode <;> exact ⟨by decide, by decide, by decide, fun _ => ⟨467, by decide, rfl, rfl⟩, by decide⟩
  all_goals cases mode <;> decide

/-- 12 and 13 periods in duplex mode, 29 and 30 in single-radio mode. -/
theorem test_witness_ThresholdMissesGiveOneLoss : ∀ mode : Mode, ∀ n ∈ [12, 13, 29, 30],
    let s := callState mode
    let bs := List.replicate (576 * n) false
    s.Inv ∧ s.delayCnt = 0 ∧ (s.slot .zero).st ≠ .idle ∧ (s.slot .zero).seen = false ∧ (s.slot .zero).miss = 0 ∧
      bs.length = 576 * n ∧ NoSyncRun bs s :=
  fun mode _ _ =>
    ⟨callState_inv mode, rfl, by cases mode <;> decide, rfl, rfl, List.length_replicate, noSyncRun_zeros _ _ rfl⟩

theorem test_witness_EventsOfOneBitAreOrdered : ∃ t, exec (bitCommand false) beforeHeaderEnd = .next t := ⟨_, rfl⟩

/-- Duplex; unlocked; the last bit before the end of a slot period. -/
theorem test_witness_FlywheelWithinAPeriod :
    let s : State := { State.reset with cfgMode := .single, locked := true, slotTimer := 286 }
    State.reset.cfgMode = .duplex ∧ ({ s with locked := false } : State).locked = false ∧
      s.cfgMode = .single ∧ s.locked = true ∧ s.slotTimer.toNat < 287 := by decide

/-- An agreeing period one below the unlock count; a second disagreement; a period above the count with a call. -/
theorem test_witness_FlywheelPeriodEndWraps :
    let s : State := { State.reset with cfgMode := .single, locked := true, slotTimer := 287, ptr := 287, noSync := 58 }
    let u : State := { s with curSlot := .one, misMatch := 1, syncP := true }
    let v : State := { s with noSync := 127, slot1 := { SlotRec.reset with st := .data } }
    (s.cfgMode = .single ∧ s.locked = true ∧ s.slotTimer.toNat = 287 ∧ s.misMatch.toNat ≤ 1 ∧
      tactSlot params s.buf ((s.ptr.toNat + 576 - 287) % 576) = s.curSlot ∧ min (s.noSync.toNat + 1) 127 < 60) ∧
    (u.misMatch.toNat = 1 ∧ tactSlot params u.buf ((u.ptr.toNat + 576 - 287) % 576) ≠ u.curSlot ∧ 0 < 60) ∧
    (min (v.noSync.toNat + 1) 127 = 127 ∧ v.slot1.st ≠ .idle) := by decide +kernel

/-- The 60th silent period. -/
theorem test_witness_FlywheelUnlocksAfterSilence :
    let s : State := { State.reset with cfgMode := .single, locked := true, slotTimer := 287, noSync := 59 }
    s.cfgMode = .single ∧ s.locked = true ∧ s.slotTimer.toNat = 287 ∧ s.syncP = false ∧ 59 ≤ s.noSync.toNat ∧
      s.slot0.st = .idle ∧ s.slot1.st = .idle := by decide

/-- The last bit of a slot period and the bit before it; a CACH that agrees after a disagreement (every second period of
F.5); and a second disagreement, which keeps `CURSLOT`. -/
theorem test_witness_LockedReceiverAlternatesSlots :
    let s : State := { State.reset with cfgMode := .single, locked := true, slotTimer := 287, ptr := 287 }
    let u : State := { s with slotTimer := 286 }
    let v : State := { s with misMatch := 1 }
    let w : State := { v with curSlot := .one }
    (∀ x ∈ [s, u, v, w], x.delayCnt = 0 ∧ x.cfgMode = .single ∧ x.locked = true ∧ x.slotTimer.toNat < 288 ∧
      x.misMatch.toNat ≤ 1 ∧ syncFound params (storeBit false x) = none) ∧
    [s, u, v, w].map (fun x => (answer (exec (bitCommand false) x)).map fun t => (t.locked, t.curSlot)) =
      [some (true, .one), some (true, .zero), some (true, .one), some (true, .one)] ∧
    tactSlot params (storeBit false v).buf ((v.ptr.toNat + 576 - 287) % 576) = v.curSlot ∧
    tactSlot params (storeBit false w).buf ((w.ptr.toNat + 576 - 287) % 576) ≠ w.curSlot := by decide +kernel

end Sys2Proof.Tests
end

section
/-! SUPPORT. The rows of the opcode table (30_encoding.md R110, R116). -/

namespace Sys2Proof

/-- The table of R110 cut to opcode and number of operand bytes; `mem_opcodeLengths_of_row` ties it to the decoder. -/
def opcodeLengths : List (Nat × Nat) :=
  [(0x00, 0), (0x01, 0), (0x02, 2), (0x03, 0), (0x04, 0), (0x10, 0), (0x11, 0), (0x20, 25), (0x21, 12), (0x22, 33),
    (0x23, 33)]

/-- The decoder reads no row but those of the table. -/
theorem mem_opcodeLengths_of_row {opcode : Byte} {n : Nat} {make : List Byte → Instr}
    (h : opcodeRow opcode = some (n, make)) : (opcode.toNat, n) ∈ opcodeLengths := by
  unfold opcodeRow at h
  split at h
  case h_12 => cases h
  all_goals next hop =>
    obtain ⟨rfl, -⟩ := Prod.mk.inj (Option.some.inj h)
    rw [hop]
    decide

/-- An opcode outside the table has no row (R115). -/
theorem opcodeRow_eq_none_of_notMem {opcode : Byte} (h : opcode.toNat ∉ opcodeLengths.map Prod.fst) :
    opcodeRow opcode = none := by
  cases hrow : opcodeRow opcode with
  | none => rfl
  | some row => exact absurd (List.mem_map_of_mem (mem_opcodeLengths_of_row hrow)) h

/-- An opcode without a row is answered alone, whatever follows it (R115). -/
theorem decode_of_row_none {opcode : Byte} (h : opcodeRow opcode = none) (bytes : List Byte) :
    decode (opcode :: bytes) = .illegalOpcode opcode bytes := by
  simp [decode, h]

/-- A decoded command came from a row of the table, was made of the operand bytes that row counts, and left the bytes
after them (R116). -/
theorem exists_row_of_decode_command {opcode : Byte} {bytes rest : List Byte} {i : Instr}
    (h : decode (opcode :: bytes) = .command i rest) :
    ∃ n make operands, opcodeRow opcode = some (n, make) ∧ bytes = operands ++ rest ∧ operands.length = n ∧
      i = make operands := by
  obtain ⟨-, hd⟩ | ⟨n, make, hrow, ⟨hn, hd⟩ | ⟨-, hd⟩⟩ := decode_cases opcode bytes <;> rw [hd] at h
  · cases h
  · obtain ⟨rfl, rfl⟩ := Decoded.command.inj h
    exact ⟨n, make, bytes.take n, hrow, (List.take_append_drop n bytes).symm, List.length_take_of_le hn, rfl⟩
  · cases h

/-- CONFIG takes the two bytes after its opcode, whatever they are (R111, R114). -/
theorem decode_config (o0 o1 : Byte) (rest : List Byte) :
    decode (0x02 :: o0 :: o1 :: rest) = .command (configOf o0 o1) rest := rfl

end Sys2Proof
end

section
/-! SUPPORT. Fields of bytes and words, as numbers, and the nine bytes of a Link-Control record (R10, R101, R111). -/

namespace Sys2Proof.Machine

/-- A field of `len` bits from bit `start` up, as a number. -/
theorem toNat_extractLsb'_eq_div_mod {n : Nat} (v : BitVec n) (start len : Nat) :
    (v.extractLsb' start len).toNat = v.toNat / 2 ^ start % 2 ^ len := by
  rw [BitVec.extractLsb'_toNat, Nat.shiftRight_eq_div_pow]

/-- The field that starts at bit 0 needs no quotient. -/
theorem toNat_extractLsb'_bottom {n : Nat} (v : BitVec n) (len : Nat) :
    (v.extractLsb' 0 len).toNat = v.toNat % 2 ^ len := by
  rw [toNat_extractLsb'_eq_div_mod, Nat.pow_zero, Nat.div_one]

/-- The field that ends at the top of the word needs no remainder. -/
theorem toNat_extractLsb'_top {n : Nat} (v : BitVec n) {start len : Nat} (h : start + len = n) :
    (v.extractLsb' start len).toNat = v.toNat / 2 ^ start := by
  rw [toNat_extractLsb'_eq_div_mod]
  apply Nat.mod_eq_of_lt
  rw [Nat.div_lt_iff_lt_mul (Nat.two_pow_pos start), ← Nat.pow_add, Nat.add_comm len, h]
  exact v.isLt

/-- The number of two words side by side, the left one more significant. -/
theorem toNat_append_eq_add {m n : Nat} (v : BitVec m) (w : BitVec n) :
    (v ++ w).toNat = 2 ^ n * v.toNat + w.toNat := by
  rw [BitVec.toNat_append, ← Nat.shiftLeft_add_eq_or_of_lt w.isLt, Nat.shiftLeft_eq, Nat.mul_comm]

/-- Three bytes side by side, as a number (R10). -/
theorem toNat_threeBytes (a b c : Byte) :
    (a ++ b ++ c).toNat = 65536 * a.toNat + 256 * b.toNat + c.toNat := by
  rw [toNat_append_eq_add, toNat_append_eq_add]
  omega

/-- The three bytes of a 24-bit field are read back as they were put side by side. -/
theorem extractLsb'_threeBytes (a b c : Byte) :
    (a ++ b ++ c).extractLsb' 16 8 = a ∧ (a ++ b ++ c).extractLsb' 8 8 = b ∧ (a ++ b ++ c).extractLsb' 0 8 = c := by
  refine ⟨?_, ?_, BitVec.extractLsb'_append_eq_right⟩
  · rw [BitVec.extractLsb'_append_eq_of_le (by decide)]
    exact BitVec.extractLsb'_append_eq_left
  · rw [BitVec.extractLsb'_append_eq_of_le (by decide)]
    exact BitVec.extractLsb'_append_eq_right

/-- A byte is its top two bits and its low six side by side. -/
theorem append_flagsField (b : Byte) :
    (b.extractLsb' 7 1 ++ b.extractLsb' 6 1 ++ b.extractLsb' 0 6 : BitVec 8) = b := by
  calc b.extractLsb' 7 1 ++ b.extractLsb' 6 1 ++ b.extractLsb' 0 6
    _ = b.extractLsb' 6 2 ++ b.extractLsb' 0 6 :=
      congrArg (· ++ b.extractLsb' 0 6) (BitVec.extractLsb'_append_extractLsb'_eq_extractLsb' rfl)
    _ = b.extractLsb' 0 8 := BitVec.extractLsb'_append_extractLsb'_eq_extractLsb' rfl
    _ = b := BitVec.extractLsb'_eq_self

/-- The bytes of a record are bytes 0–8 of the block it was read from (R101). -/
theorem LcRecord.toBytes_ofBytes (raw : List Byte) :
    (LcRecord.ofBytes raw).toBytes = (List.range 9).map (byteAt raw) := by
  obtain ⟨hd0, hd1, hd2⟩ := extractLsb'_threeBytes (byteAt raw 3) (byteAt raw 4) (byteAt raw 5)
  obtain ⟨hs0, hs1, hs2⟩ := extractLsb'_threeBytes (byteAt raw 6) (byteAt raw 7) (byteAt raw 8)
  simp only [LcRecord.toBytes, LcRecord.ofBytes, append_flagsField, hd0, hd1, hd2, hs0, hs1, hs2]
  rfl

/-- The first `n` bytes of a long enough string, read one by one. -/
theorem map_byteAt_range {bytes : List Byte} {n : Nat} (h : n ≤ bytes.length) :
    (List.range n).map (byteAt bytes) = bytes.take n := by
  apply List.ext_getElem
  · simp [h]
  · intro i hi _
    have hlt : i < bytes.length := by simp at hi; omega
    simp [byteAt, List.getElem?_eq_getElem hlt]

end Sys2Proof.Machine
end

section
/-! The opcode table, the operands of CONFIG and the Link-Control record: the statements about the encoding. -/

open Sys2Proof Sys2Proof.Machine

/-- Settles O4: a command comes from a row of the table, and an opcode without a row is answered alone. -/
theorem opcodeFixesOperandLength : Obligations.OpcodeFixesOperandLength := by
  intro opcode bytes
  constructor
  · intro i rest h
    obtain ⟨n, make, operands, hrow, hbytes, hlen, -⟩ := exists_row_of_decode_command h
    exact ⟨n, operands, hbytes, hlen, mem_opcodeLengths_of_row hrow⟩
  · intro h
    exact decode_of_row_none (opcodeRow_eq_none_of_notMem h) bytes

/-- Settles O35: each field is a quotient and remainder of a byte or three bytes side by side, and packing the fields
gives the bytes back. -/
theorem lcRecordFields : Obligations.LcRecordFields := by
  intro raw h
  exact ⟨(LcRecord.toBytes_ofBytes raw).trans (map_byteAt_range h),
    toNat_extractLsb'_top (byteAt raw 0) rfl,
    toNat_extractLsb'_eq_div_mod (byteAt raw 0) 6 1,
    toNat_extractLsb'_bottom (byteAt raw 0) 6,
    rfl, rfl,
    toNat_threeBytes (byteAt raw 3) (byteAt raw 4) (byteAt raw 5),
    toNat_threeBytes (byteAt raw 6) (byteAt raw 7) (byteAt raw 8)⟩

/-- Settles O8: CONFIG's first operand byte cut at bits 7 and 4, as numbers. -/
theorem configOperandLayout : Obligations.ConfigOperandLayout := by
  intro o0 o1 rest
  exact ⟨_, _, _, decode_config o0 o1 rest, toNat_extractLsb'_top o0 rfl, toNat_extractLsb'_eq_div_mod o0 4 3,
    toNat_extractLsb'_bottom o0 4⟩

end

section
/-! SUPPORT. The deinterleave of BPTC_DECODE, position by position (R132, R134). -/

namespace Sys2Proof.Machine

open Sys2Proof.Config (Params)

/-- Inside the 196 positions the deinterleave reads the coded block at the multiplied position (R132). -/
theorem getLsbD_deinterleave_of_lt (P : Params) (coded : Coded) {k : Nat} (h : k < 196) :
    (deinterleave P coded).getLsbD k = coded.getLsbD (P.deintMult * k % 196) := by
  rw [getLsbD_deinterleave, decide_eq_true h, Bool.true_and]

/-- A multiplier that inverts `DEINT_MULT` modulo 196 undoes the deinterleave. -/
theorem getLsbD_deinterleave_inverse {P : Params} {inv : Nat} (hinv : P.deintMult * inv % 196 = 1) (coded : Coded)
    {j : Nat} (h : j < 196) : (deinterleave P coded).getLsbD (inv * j % 196) = coded.getLsbD j := by
  have hpos : P.deintMult * (inv * j % 196) % 196 = j :=
    calc P.deintMult * (inv * j % 196) % 196
      _ = P.deintMult * inv * j % 196 := by rw [Nat.mul_mod_mod, Nat.mul_assoc]
      _ = 1 * j % 196 := by rw [← Nat.mod_mul_mod (P.deintMult * inv), hinv]
      _ = j := by rw [Nat.one_mul, Nat.mod_eq_of_lt h]
  rw [getLsbD_deinterleave_of_lt P coded (Nat.mod_lt _ (by decide)), hpos]

end Sys2Proof.Machine
end

section
/-! The deinterleave of BPTC_DECODE: the statement about its positions. -/

open Sys2Proof Sys2Proof.Machine

/-- Settles O24: position `k` is read at `13 * k`, and 181 inverts 13 modulo 196. -/
theorem deinterleaveIsABijection : Obligations.DeinterleaveIsABijection := by
  intro coded
  constructor
  · intro k hk
    exact getLsbD_deinterleave_of_lt params coded hk
  · intro j hj
    have hinv : params.deintMult * 181 % 196 = 1 := by decide
    exact getLsbD_deinterleave_inverse hinv coded hj

end

section
/-! SUPPORT. What LC_DECODE reads of its operand (42_link_control.md R190, R191, R197). -/

namespace Sys2Proof.Machine

open Sys2Proof.Config (Params)

/-- Inside the burst, bit `i` of the operand is bit `i` of the byte string. -/
theorem getLsbD_burstOperand_of_lt (bytes : List Byte) {i : Nat} (h : i < 264) :
    (burstOperand bytes).getLsbD i = stringBit bytes i := by
  rw [burstOperand, getLsbD_bits, decide_eq_true h, Bool.true_and, stringBit]

/-- The first half of the coded block is burst bits 0–97 (R191). -/
theorem getLsbD_codedOfBurst_left (bytes : List Byte) {i : Nat} (h : i < 98) :
    (codedOfBurst (burstOperand bytes)).getLsbD i = stringBit bytes i := by
  have hcoded : i < 196 := by omega
  rw [getLsbD_codedOfBurst, decide_eq_true hcoded, Bool.true_and, if_pos h,
    getLsbD_burstOperand_of_lt bytes (by omega)]

/-- The second half of the coded block is burst bits 166–263 (R191). -/
theorem getLsbD_codedOfBurst_right (bytes : List Byte) {i : Nat} (h : i < 98) :
    (codedOfBurst (burstOperand bytes)).getLsbD (98 + i) = stringBit bytes (166 + i) := by
  have hcoded : 98 + i < 196 := by omega
  have hright : ¬ 98 + i < 98 := by omega
  rw [getLsbD_codedOfBurst, decide_eq_true hcoded, Bool.true_and, if_neg hright, Nat.add_sub_cancel_left,
    getLsbD_burstOperand_of_lt bytes (by omega)]

/-- The burst bits outside the sync and burst-type fields determine the coded block (R191). -/
theorem eq_codedOfBurst_of_stringBit {coded : Coded} {bytes : List Byte}
    (h : ∀ i < 98, coded.getLsbD i = stringBit bytes i ∧ coded.getLsbD (98 + i) = stringBit bytes (166 + i)) :
    coded = codedOfBurst (burstOperand bytes) := by
  apply BitVec.eq_of_getLsbD_eq
  intro i hi
  by_cases hleft : i < 98
  · rw [(h i hleft).1, getLsbD_codedOfBurst_left bytes hleft]
  · obtain ⟨j, rfl⟩ := Nat.exists_eq_add_of_le (Nat.le_of_not_lt hleft)
    have hj : j < 98 := by omega
    rw [(h j hj).2, getLsbD_codedOfBurst_right bytes hj]

/-- The extractor reads nothing of a burst but its coded block (R190, R191). -/
theorem lcx_congr_codedOfBurst (P : Params) (kind : LcKind) {a b : Burst} (h : codedOfBurst a = codedOfBurst b) :
    lcx P a kind = lcx P b kind := by
  simp only [lcx, lcRaw, h]

/-- LC_DECODE of either kind appends one OK response with the extractor's result and writes nothing else (R197). -/
theorem exec_lcCommand (kind : LcKind) (bytes : List Byte) (s : State) :
    exec (lcCommand kind bytes) s = .next
      { s with responses := s.responses ++ [okResponse (lcPayload (lcx params (burstOperand bytes) kind))] } := by
  cases kind <;> rfl

end Sys2Proof.Machine
end

section
/-! LC_DECODE: the statement about what it reads. -/

open Sys2Proof Sys2Proof.Machine

/-- Settles O34: bursts that agree outside bits 98–165 have one coded block, which is all the payload is made of. -/
theorem lcDecodeReadsOnlyTheInformationBits : Obligations.LcDecodeReadsOnlyTheInformationBits := by
  intro a b kind _ _ hagree
  have hcoded : codedOfBurst (burstOperand a) = codedOfBurst (burstOperand b) := by
    apply eq_codedOfBurst_of_stringBit
    intro i hi
    obtain ⟨hleft, hright⟩ := hagree i hi
    exact ⟨(getLsbD_codedOfBurst_left a hi).trans hleft, (getLsbD_codedOfBurst_right a hi).trans hright⟩
  refine ⟨lcPayload (lcx params (burstOperand a) kind), fun s => ⟨exec_lcCommand kind a s, ?_⟩⟩
  rw [lcx_congr_codedOfBurst params kind hcoded]
  exact exec_lcCommand kind b s

end

section
/-! SUPPORT. What RESET, CONFIG and a BIT do to the delay count (43_slot_receiver.md R212, 44_control.md R282, R283). -/

namespace Sys2Proof.Machine

open Sys2Proof.Config (Params)

/-- While bits are being delayed, a received bit is discarded. -/
theorem receiveBit_of_delayCnt_ne_zero (P : Params) (b : Bool) {s : State} (h : s.delayCnt ≠ 0) :
    receiveBit P b s = discardBit s := if_neg h

/-- The response byte of BIT, in terms of the two slots (R270, R56). -/
theorem flagByte_active (s : State) :
    flagByte s.active = if s.slot0.st ≠ .idle ∨ s.slot1.st ≠ .idle then 0x01 else 0x00 := by
  simp [flagByte, State.active]

/-- The BIT command of a bit, in the form `exec_bitCommand` speaks of. -/
theorem bitCommand_eq_ite (b : Bool) : bitCommand b = if b then .bit1 else .bit0 := by
  cases b <;> rfl

/-- RESET and CONFIG both load the delay count from the configuration they leave (R282, R283). -/
theorem delayCnt_eq_cfgDelay_of_reset_or_config {i : Instr} {s t : State}
    (hi : i = .reset ∨ ∃ mode rsv cc delay, i = .config mode rsv cc delay) (h : exec i s = .next t) :
    t.delayCnt = t.cfgDelay := by
  rcases hi with rfl | ⟨mode, rsv, cc, delay, rfl⟩ <;> cases h <;> rfl

/-- As many bits as are to be delayed, whatever they are, only count `DELAYCNT` down (R212). -/
theorem receiveBits_of_length_le_delayCnt (bs : List Bool) (s : State) (h : bs.length ≤ s.delayCnt.toNat) :
    receiveBits bs s = { s with delayCnt := BitVec.ofNat 8 (s.delayCnt.toNat - bs.length) } := by
  induction bs generalizing s with
  | nil => simp [receiveBits]
  | cons b bs ih =>
    rw [List.length_cons] at h
    have hne : s.delayCnt ≠ 0 := by
      intro h0
      simp [h0] at h
    have hdec : (s.delayCnt - 1).toNat = s.delayCnt.toNat - 1 := by bv_omega
    have hrest : bs.length ≤ (discardBit s).delayCnt.toNat := by
      rw [discardBit_delayCnt, hdec]
      omega
    rw [receiveBits, receiveBit_of_delayCnt_ne_zero params b hne, ih _ hrest, discardBit_delayCnt, hdec,
      Nat.sub_sub, Nat.add_comm 1, List.length_cons]
    rfl

end Sys2Proof.Machine
end

section
/-! The delay count: the statement about discarded bits. -/

open Sys2Proof Sys2Proof.Machine

/-- Settles O36: one delayed bit by the receiver's step 0, and a list of them by induction on the list. -/
theorem delayedBitsAreDiscarded : Obligations.DelayedBitsAreDiscarded := by
  constructor
  · intro s b hdelay
    rw [bitCommand_eq_ite, exec_bitCommand, receiveBit_of_delayCnt_ne_zero params b hdelay, respondActive, flagByte_active]
    rfl
  · intro s t i bs hi hexec hlen
    have hload : t.delayCnt = t.cfgDelay := delayCnt_eq_cfgDelay_of_reset_or_config hi hexec
    have hdelayed : bs.length ≤ t.delayCnt.toNat := by rwa [hload]
    refine ⟨hload, ?_⟩
    rw [receiveBits_of_length_le_delayCnt bs t hdelayed, hload]

end

section
/-! SUPPORT. The correlation gate: the window, the home slot, and what step 2 finds (43_slot_receiver.md R215–R218). -/

namespace Sys2Proof.Machine

open Sys2Proof.Config (Params)

/-- A slot in window is in a call and near its expected sync (R216). -/
theorem inWindow_iff (P : Params) (s : State) (k : SlotId) :
    inWindow P s k = true ↔
      (s.slot k).st ≠ .idle ∧ ∃ e, (s.slot k).expSync = some e ∧ cdist s.ptr e ≤ P.window := by
  unfold inWindow
  cases (s.slot k).expSync <;> simp

/-- `WSLOT` names a slot iff one is in window (R216). -/
theorem windowSlot_isSome_iff (P : Params) (s : State) :
    (windowSlot P s).isSome = true ↔ inWindow P s .zero = true ∨ inWindow P s .one = true := by
  unfold windowSlot
  split
  next h0 => simp [h0]
  next h0 =>
    split
    next h1 => simp [h1]
    next h1 => simp [h0, h1]

/-- In duplex mode the home slot is the cursor half (R217). -/
theorem homeSlot_of_duplex {s : State} (h : s.cfgMode = .duplex) : homeSlot s = some (halfSlot s.ptr) := by
  simp [homeSlot, h]

/-- In single-radio mode the home slot is the current slot once locked, and there is none before (R217). -/
theorem homeSlot_of_single {s : State} (h : s.cfgMode = .single) :
    homeSlot s = if s.locked then some s.curSlot else none := by
  simp [homeSlot, h]

/-- The gate is open iff a slot is in window or no home slot is in a call (R215). -/
theorem gateOpen_iff (P : Params) (s : State) :
    gateOpen P s = true ↔ inWindow P s .zero = true ∨ inWindow P s .one = true ∨
      ∀ home, homeSlot s = some home → (s.slot home).st = .idle := by
  rw [gateOpen, Bool.or_eq_true, windowSlot_isSome_iff, or_assoc]
  cases homeSlot s <;> simp

/-- In duplex mode no home slot is in a call iff the slot of the cursor half is IDLE (R217). -/
theorem homeSlot_idle_iff_of_duplex {s : State} (h : s.cfgMode = .duplex) :
    (∀ home, homeSlot s = some home → (s.slot home).st = .idle) ↔
      if s.ptr.toNat < 288 then s.slot0.st = .idle else s.slot1.st = .idle := by
  rw [homeSlot_of_duplex h, halfSlot]
  split <;> simp

/-- In single-radio mode no home slot is in a call iff the receiver is unlocked or its current slot is IDLE (R217). -/
theorem homeSlot_idle_iff_of_single {s : State} (h : s.cfgMode = .single) :
    (∀ home, homeSlot s = some home → (s.slot home).st = .idle) ↔
      s.locked = false ∨ (s.slot s.curSlot).st = .idle := by
  rw [homeSlot_of_single h]
  cases s.locked <;> simp

/-- With the gate open step 2 finds what the correlator reports (R215, R218). -/
theorem syncFound_of_gateOpen {P : Params} {s : State} (h : gateOpen P s = true) :
    syncFound P s = corr P s.cfgMode (s.pat.setWidth 48) := if_pos h

/-- With the gate closed step 2 finds nothing (R215). -/
theorem syncFound_of_not_gateOpen {P : Params} {s : State} (h : ¬ gateOpen P s = true) : syncFound P s = none :=
  if_neg h

end Sys2Proof.Machine
end

section
/-! The correlation gate: the statement about when correlation is attempted. -/

open Sys2Proof Sys2Proof.Machine

/-- Settles O41: the written-out condition is `gateOpen`, mode by mode. -/
theorem correlationGateRule : Obligations.CorrelationGateRule := by
  intro s inWin homeIdle
  have hhome : (∀ home, homeSlot s = some home → (s.slot home).st = .idle) ↔ homeIdle := by
    cases hmode : s.cfgMode with
    | duplex => simpa only [homeIdle, hmode] using homeSlot_idle_iff_of_duplex hmode
    | single => simpa only [homeIdle, hmode] using homeSlot_idle_iff_of_single hmode
  have hgate : gateOpen params s = true ↔ inWin s.slot0 ∨ inWin s.slot1 ∨ homeIdle := by
    rw [gateOpen_iff, inWindow_iff, inWindow_iff, hhome]
    rfl
  rw [← hgate]
  exact ⟨syncFound_of_gateOpen, syncFound_of_not_gateOpen⟩

end

section
/-! SUPPORT. Fields packed into bytes, as numbers, and the bytes of the STATUS read-out (R113, R284). -/

namespace Sys2Proof.Machine

/-- Fields packed side by side add up: the left one is a multiple of `2 ^ k`, the right one stays below it. -/
theorem toNat_or_eq_add {n : Nat} {v w : BitVec n} {x y : Nat} (k : Nat) (hv : v.toNat = x) (hw : w.toNat = y)
    (hdvd : 2 ^ k ∣ x) (hlt : y < 2 ^ k) : (v ||| w).toNat = x + y := by
  obtain ⟨a, rfl⟩ := hdvd
  rw [BitVec.toNat_or, hv, hw, Nat.two_pow_add_eq_or_of_lt hlt]

/-- A byte moved up by `k` bits that loses none of its own. -/
theorem toNat_shiftLeft_eq_mul (v : Byte) {k : Nat} (h : 2 ^ k * v.toNat < 256) :
    (v <<< k).toNat = 2 ^ k * v.toNat := by
  rw [BitVec.toNat_shiftLeft, Nat.shiftLeft_eq, Nat.mul_comm, Nat.mod_eq_of_lt h]

/-- A field of at most 8 bits moved up by `k` bits that loses none of its own. -/
theorem toNat_setWidth_shiftLeft_eq_mul {m : Nat} (v : BitVec m) {k : Nat} (hm : m ≤ 8) (h : 2 ^ k * v.toNat < 256) :
    (v.setWidth 8 <<< k).toNat = 2 ^ k * v.toNat := by
  have hv : (v.setWidth 8).toNat = v.toNat := BitVec.toNat_setWidth_of_le hm
  rw [toNat_shiftLeft_eq_mul _ (by rwa [hv]), hv]

/-- The high byte of a register of at most 16 bits. -/
theorem toNat_highByte {n : Nat} (v : BitVec n) (h : n ≤ 16) : ((v >>> 8).setWidth 8).toNat = v.toNat / 256 := by
  have hv : v.toNat < 256 * 256 := Nat.lt_of_lt_of_le v.isLt (Nat.pow_le_pow_right (by decide) h)
  rw [BitVec.toNat_setWidth, BitVec.toNat_ushiftRight, Nat.shiftRight_eq_div_pow]
  exact Nat.mod_eq_of_lt (Nat.div_lt_of_lt_mul hv)

/-- A flag with weight `2 ^ k` in a byte. -/
theorem two_pow_mul_toNat_flagByte (k : Nat) (b : Bool) : 2 ^ k * (flagByte b).toNat = if b then 2 ^ k else 0 := by
  cases b <;> simp [flagByte]

/-- A flag byte is 0 or 1 (R113). -/
theorem toNat_flagByte_le_one (b : Bool) : (flagByte b).toNat ≤ 1 := by
  cases b <;> decide

/-- A slot number with weight `2 ^ k` in a byte. -/
theorem SlotId.two_pow_mul_toNat_toBit (k : Nat) (slot : SlotId) :
    2 ^ k * slot.toBit.toNat = if slot = .one then 2 ^ k else 0 := by
  cases slot <;> simp [SlotId.toBit]

/-- The mode with weight `2 ^ k` in a byte. -/
theorem Mode.two_pow_mul_toNat_toBit (k : Nat) (mode : Mode) :
    2 ^ k * mode.toBit.toNat = if mode = .single then 2 ^ k else 0 := by
  cases mode <;> simp [Mode.toBit]

/-- Byte 0 of STATUS: the mode and the colour code (R284). -/
theorem toNat_statusConfig (mode : Mode) (cc : BitVec 4) :
    ((mode.toBit.setWidth 8 <<< 7) ||| cc.setWidth 8).toNat = (if mode = .single then 128 else 0) + cc.toNat := by
  have hmode : (mode.toBit.setWidth 8 <<< 7).toNat = 2 ^ 7 * mode.toBit.toNat :=
    toNat_setWidth_shiftLeft_eq_mul _ (by decide) (by omega)
  have hcc : (cc.setWidth 8).toNat = cc.toNat := BitVec.toNat_setWidth_of_le (by decide)
  rw [toNat_or_eq_add 7 hmode hcc (by omega) (by omega), Mode.two_pow_mul_toNat_toBit]
  rfl

/-- Byte 2 of STATUS: the one bit it has for `MISMATCH` holds a count of 0 or 1 (R43, R284). -/
theorem State.toNat_statusFlags {s : State} (hmis : s.misMatch.toNat ≤ 1) :
    s.statusFlags.toNat =
      (if s.locked then 128 else 0) + (if s.curSlot = .one then 64 else 0) + (if s.bsSync then 32 else 0) +
        16 * s.misMatch.toNat + 4 * s.slot1.st.encoding.toNat + s.slot0.st.encoding.toNat := by
  have hlockedLe := toNat_flagByte_le_one s.locked
  have hbsSyncLe := toNat_flagByte_le_one s.bsSync
  have hlocked := toNat_shiftLeft_eq_mul (flagByte s.locked) (k := 7) (by omega)
  have hcurSlot := toNat_setWidth_shiftLeft_eq_mul s.curSlot.toBit (k := 6) (by decide) (by omega)
  have hbsSync := toNat_shiftLeft_eq_mul (flagByte s.bsSync) (k := 5) (by omega)
  have hmisMatch := toNat_setWidth_shiftLeft_eq_mul s.misMatch (k := 4) (by decide) (by omega)
  have hst1 := toNat_setWidth_shiftLeft_eq_mul s.slot1.st.encoding (k := 2) (by decide) (by omega)
  have hst0 : (s.slot0.st.encoding.setWidth 8).toNat = s.slot0.st.encoding.toNat :=
    BitVec.toNat_setWidth_of_le (by decide)
  have hupTo6 := toNat_or_eq_add 7 hlocked hcurSlot (by omega) (by omega)
  have hupTo5 := toNat_or_eq_add 6 hupTo6 hbsSync (by omega) (by omega)
  have hupTo4 := toNat_or_eq_add 5 hupTo5 hmisMatch (by omega) (by omega)
  have hupTo2 := toNat_or_eq_add 4 hupTo4 hst1 (by omega) (by omega)
  have hbyte := toNat_or_eq_add 2 hupTo2 hst0 (by omega) (by omega)
  rw [State.statusFlags, hbyte, two_pow_mul_toNat_flagByte, SlotId.two_pow_mul_toNat_toBit, two_pow_mul_toNat_flagByte]
  rfl

/-- Bytes 3 and 4 of STATUS: the superframe position and the miss count (R284). -/
theorem SlotRec.toNat_statusByte (r : SlotRec) : r.statusByte.toNat = 32 * r.n.toNat + r.miss.toNat :=
  toNat_append_eq_add r.n r.miss

/-- NOP keeps the state and answers with no payload (R280). -/
theorem exec_nop (s : State) : exec .nop s = .next (s.respondOk []) := rfl

/-- STATUS keeps the state, `BSSYNC` too, and answers with the read-out (R284). -/
theorem exec_status (s : State) : exec .status s = .next (s.respondOk s.statusPayload) := rfl

end Sys2Proof.Machine
end

section
/-! NOP and STATUS: the statements about the commands that only respond. -/

open Sys2Proof Sys2Proof.Machine

/-- Settles O14: byte by byte, each a register, a register's high or low part, or fields packed side by side. -/
theorem statusReportsTheState : Obligations.StatusReportsTheState := by
  intro s hmis
  refine ⟨s.statusPayload, exec_status s, ?_⟩
  have hnoSync : (s.noSync.setWidth 8).toNat = s.noSync.toNat := BitVec.toNat_setWidth_of_le (by decide)
  simp only [State.statusPayload, List.map_cons, List.map_nil, toNat_statusConfig, State.toNat_statusFlags hmis,
    SlotRec.toNat_statusByte, toNat_highByte s.ptr (by decide), BitVec.toNat_setWidth 8 s.ptr,
    toNat_highByte s.slotTimer (by decide), BitVec.toNat_setWidth 8 s.slotTimer, hnoSync]
  -- What is left is `enc(ST)` of the two slots, constructor by constructor.
  cases s.slot0.st <;> cases s.slot1.st <;> rfl

/-- Settles O11: NOP is its response, appended. -/
theorem nopOnlyResponds : Obligations.NopOnlyResponds := exec_nop

end

section
/-! SUPPORT. The illegal opcodes by their ranges, and the step of one (30_encoding.md R115, 60_exceptions.md R303). -/

namespace Sys2Proof

/-- The illegal ranges of R115 hold no opcode of the table. -/
theorem notMem_opcodeLengths_of_illegal {n : Nat}
    (h : 0x05 ≤ n ∧ n ≤ 0x0F ∨ 0x12 ≤ n ∧ n ≤ 0x1F ∨ 0x24 ≤ n) : n ∉ opcodeLengths.map Prod.fst := by
  simp only [opcodeLengths, List.map_cons, List.map_nil, List.mem_cons, List.not_mem_nil, or_false]
  omega

namespace Machine

/-- The step of an illegal opcode takes its byte and answers 0xFF, nothing more (R303). -/
theorem step_of_illegalOpcode {s : State} {opcode : Byte} {rest : List Byte}
    (h : decode s.input = .illegalOpcode opcode rest) : step s = .next (s.withInput rest).respondIllegal := by
  obtain ⟨i, rest', hd, -⟩ | ⟨opcode', rest', hd, hstep⟩ | ⟨hd, -⟩ := step_cases s <;> rw [hd] at h
  · cases h
  · obtain ⟨-, rfl⟩ := Decoded.illegalOpcode.inj h
    exact hstep
  · cases h

end Machine

end Sys2Proof
end

section
/-! Illegal opcodes: the statement about the exceptions. -/

open Sys2Proof Sys2Proof.Machine

/-- Settles O3: an opcode in an illegal range has no row, so it is decoded alone and its step only responds. -/
theorem illegalOpcodeRespondsOnly : Obligations.IllegalOpcodeRespondsOnly := by
  intro s opcode rest hillegal hinput
  have hrow : opcodeRow opcode = none := opcodeRow_eq_none_of_notMem (notMem_opcodeLengths_of_illegal hillegal)
  have hdecode : decode s.input = .illegalOpcode opcode rest := by rw [hinput, decode_of_row_none hrow]
  exact step_of_illegalOpcode hdecode

end

section
/-! SUPPORT. RESET as `RECEIVE_RESET` and a response, power-up as what it leaves, and the step that waits
(44_control.md R282, 60_exceptions.md R304, 70_reset_and_hazards.md R320). -/

namespace Sys2Proof.Machine

/-- RESET performs `RECEIVE_RESET` and answers with no payload (R282). -/
theorem exec_reset (s : State) : exec .reset s = .next (s.receiveReset.respondOk []) := rfl

/-- Power-up is a state that `RECEIVE_RESET` leaves as it is: every element of R60 is at its reset value, and `DELAYCNT`
is the zero `CFG_DELAY` (R320). -/
theorem State.receiveReset_powerUp : State.reset.receiveReset = State.reset := rfl

/-- Without a complete command in the stream the step waits (R304). -/
theorem step_of_incomplete {s : State} (h : decode s.input = .incomplete) : step s = .next s := by
  obtain ⟨i, rest, hd, -⟩ | ⟨opcode, rest, hd, -⟩ | ⟨-, hstep⟩ := step_cases s
  · cases hd.symm.trans h
  · cases hd.symm.trans h
  · exact hstep

end Sys2Proof.Machine
end

section
/-! Power-up: the statement about the launch state. -/

open Sys2Proof Sys2Proof.Machine

/-- Settles O16: `RECEIVE_RESET` keeps the power-up state, so RESET only responds there; the registers are
read off the state; and the command stream is empty, so the first step waits. -/
theorem powerUpIsResetWithZeroConfiguration : Obligations.PowerUpIsResetWithZeroConfiguration := by
  have hreset : exec .reset State.reset = .next (State.reset.respondOk []) := by
    rw [exec_reset, State.receiveReset_powerUp]
  have hwaits : step State.reset = .next State.reset := step_of_incomplete decode_nil
  exact ⟨rfl, rfl, rfl, rfl, hreset, rfl, rfl, rfl, rfl, rfl, hwaits⟩

end

section
/-! SUPPORT. The encoder and the decoder row by row (30_encoding.md R110, R111, R116). -/

namespace Sys2Proof

/-- An opcode of the table with all its operand bytes decodes to the command they make, whatever follows (R110). -/
theorem decode_of_row {opcode : Byte} {n : Nat} {make : List Byte → Instr} {operands : List Byte}
    (hrow : opcodeRow opcode = some (n, make)) (hlen : operands.length = n) (rest : List Byte) :
    decode (opcode :: operands ++ rest) = .command (make operands) rest := by
  simp [decode, hrow, ← hlen]

/-- An opcode of the table with too few operand bytes is not issued (R304). -/
theorem decode_of_row_incomplete {opcode : Byte} {n : Nat} {make : List Byte → Instr} {bytes : List Byte}
    (hrow : opcodeRow opcode = some (n, make)) (hlen : bytes.length < n) :
    decode (opcode :: bytes) = .incomplete := by
  have hshort : ¬ n ≤ bytes.length := by omega
  simp [decode, hrow, hshort]

/-- The encoding of a well-formed command is the opcode of a row and the operand bytes that row makes the command of. -/
theorem exists_row_of_wellFormed {i : Instr} (h : i.wellFormed = true) :
    ∃ opcode operands n make, encode i = opcode :: operands ∧ opcodeRow opcode = some (n, make) ∧
      operands.length = n ∧ make operands = i := by
  cases i with
  | nop => exact ⟨0x00, [], _, _, rfl, rfl, rfl, rfl⟩
  | reset => exact ⟨0x01, [], _, _, rfl, rfl, rfl, rfl⟩
  | config mode rsv cc delay => exact ⟨0x02, _, _, _, rfl, rfl, rfl, configOf_layout mode rsv cc delay⟩
  | status => exact ⟨0x03, [], _, _, rfl, rfl, rfl, rfl⟩
  | txsyncPoll => exact ⟨0x04, [], _, _, rfl, rfl, rfl, rfl⟩
  | bit0 => exact ⟨0x10, [], _, _, rfl, rfl, rfl, rfl⟩
  | bit1 => exact ⟨0x11, [], _, _, rfl, rfl, rfl, rfl⟩
  | bptcDecode operand => exact ⟨0x20, operand, _, _, rfl, rfl, beq_iff_eq.mp h, rfl⟩
  | rsCheck codeword => exact ⟨0x21, codeword, _, _, rfl, rfl, beq_iff_eq.mp h, rfl⟩
  | lcDecodeVh burst => exact ⟨0x22, burst, _, _, rfl, rfl, beq_iff_eq.mp h, rfl⟩
  | lcDecodeTlc burst => exact ⟨0x23, burst, _, _, rfl, rfl, beq_iff_eq.mp h, rfl⟩

/-- The fields of CONFIG's first operand byte side by side are the byte, the reserved bits among them (R111). -/
theorem append_configFields (b : Byte) :
    (b.extractLsb' 7 1 ++ b.extractLsb' 4 3 ++ b.extractLsb' 0 4 : BitVec 8) = b := by
  calc b.extractLsb' 7 1 ++ b.extractLsb' 4 3 ++ b.extractLsb' 0 4
    _ = b.extractLsb' 4 4 ++ b.extractLsb' 0 4 :=
      congrArg (· ++ b.extractLsb' 0 4) (BitVec.extractLsb'_append_extractLsb'_eq_extractLsb' rfl)
    _ = b.extractLsb' 0 8 := BitVec.extractLsb'_append_extractLsb'_eq_extractLsb' rfl
    _ = b := BitVec.extractLsb'_eq_self

/-- The command a row makes of its operand bytes is well formed and is encoded by that opcode and those bytes. -/
theorem encode_of_row {opcode : Byte} {n : Nat} {make : List Byte → Instr} {operands : List Byte}
    (hrow : opcodeRow opcode = some (n, make)) (hlen : operands.length = n) :
    (make operands).wellFormed = true ∧ encode (make operands) = opcode :: operands := by
  have hself : BitVec.ofNat 8 opcode.toNat = opcode := by simp
  unfold opcodeRow at hrow
  split at hrow
  case h_12 => cases hrow
  all_goals
    rename_i hopcode
    obtain ⟨rfl, rfl⟩ := Prod.mk.inj (Option.some.inj hrow)
    rw [← hself, hopcode]
  case h_3 =>
    obtain ⟨o0, o1, rfl⟩ := List.length_eq_two.mp hlen
    exact ⟨rfl, by simp [encode, configOf, append_configFields]⟩
  case h_8 | h_9 | h_10 | h_11 => exact ⟨beq_iff_eq.mpr hlen, rfl⟩
  all_goals
    obtain rfl := List.length_eq_zero_iff.mp hlen
    exact ⟨rfl, rfl⟩

/-- Whatever decodes to a command is that command's encoding and the bytes left. -/
theorem encode_of_decode {bytes rest : List Byte} {i : Instr} (h : decode bytes = .command i rest) :
    i.wellFormed = true ∧ bytes = encode i ++ rest := by
  cases bytes with
  | nil => cases decode_nil.symm.trans h
  | cons opcode bytes =>
    obtain ⟨n, make, operands, hrow, rfl, hlen, rfl⟩ := exists_row_of_decode_command h
    obtain ⟨hwf, henc⟩ := encode_of_row hrow hlen
    exact ⟨hwf, by rw [henc, List.cons_append]⟩

/-- A command cut short, by however much, is not issued. -/
theorem decode_of_encode_prefix {i : Instr} {bytes missing : List Byte} (hwf : i.wellFormed = true)
    (hmissing : missing ≠ []) (henc : encode i = bytes ++ missing) : decode bytes = .incomplete := by
  cases bytes with
  | nil => exact decode_nil
  | cons opcode bytes =>
    obtain ⟨opcode', operands, n, make, henc', hrow, hlen, -⟩ := exists_row_of_wellFormed hwf
    obtain ⟨rfl, rfl⟩ := List.cons.inj (henc'.symm.trans henc)
    have hpos : 0 < missing.length := List.length_pos_iff.mpr hmissing
    rw [List.append_eq, List.length_append] at hlen
    exact decode_of_row_incomplete hrow (by omega)

namespace Machine

/-- The step of a command at the front of the stream (R281). -/
theorem step_of_command {s : State} {i : Instr} {rest : List Byte} (h : decode s.input = .command i rest) :
    step s = exec i (s.withInput rest) := by
  simp [step, State.nextCommand, h]

end Machine

end Sys2Proof
end

section
/-! The command stream: the statements about the encoder, the decoder and the command a step performs. -/

open Sys2Proof Sys2Proof.Machine

/-- Settles O5: the encoding is a row's opcode and operand bytes, which the decoder reads back. -/
theorem decodeOfEncodeIsTheCommand : Obligations.DecodeOfEncodeIsTheCommand := by
  intro i rest hwf
  obtain ⟨opcode, operands, n, make, henc, hrow, hlen, rfl⟩ := exists_row_of_wellFormed hwf
  rw [henc]
  exact decode_of_row hrow hlen rest

/-- Settles O6: a decoded command came from a row, and the row's bytes are its encoding. -/
theorem decodedBytesAreTheEncoding : Obligations.DecodedBytesAreTheEncoding :=
  fun _ _ _ => encode_of_decode

/-- Settles O1: what decodes is well formed, and the step is its meaning. -/
theorem stepRunsDecodedCommand : Obligations.StepRunsDecodedCommand :=
  fun _ _ _ hdecode => ⟨(encode_of_decode hdecode).1, step_of_command hdecode⟩

/-- Settles O2: a strict initial part of an encoding decodes to nothing, so the step waits. -/
theorem incompleteCommandIsNotPerformed : Obligations.IncompleteCommandIsNotPerformed :=
  fun _ _ _ hwf hmissing henc => step_of_incomplete (decode_of_encode_prefix hwf hmissing henc)

/-- Settles O7: each word is the encoding of its command. -/
theorem tableWordsDecode : Obligations.TableWordsDecode := by
  have hdecode := decodeOfEncodeIsTheCommand
  exact ⟨hdecode .nop [] rfl, hdecode .reset [0x11] rfl, hdecode (.config 1 0 15 7) [] rfl, hdecode .status [] rfl,
    hdecode .txsyncPoll [] rfl, hdecode .bit0 [] rfl, hdecode .bit1 [] rfl, hdecode (.rsCheck [1, 2, 3, 4, 5, 6, 7, 8, 9, 0xAA, 0x04, 0xAF]) [] rfl⟩

end

section
/-! SUPPORT. What each command writes outside the receive state: its response, the configuration, the cursor, the events
(30_encoding.md R112, 10_state.md R33–R37, R55). -/

namespace Sys2Proof.Machine

/-- The payload length of a command's response (30_encoding.md R110); `exec_eq_respondOk` ties it to `exec`. -/
def payloadLength : Instr → Nat
  | .nop | .reset | .config _ _ _ _ => 0
  | .status => 11
  | .txsyncPoll | .bit0 | .bit1 | .rsCheck _ => 1
  | .bptcDecode _ => 12
  | .lcDecodeVh _ | .lcDecodeTlc _ => 10

/-- A BIT command receives its bit and answers `ACTIVE` (R211, R270). -/
theorem exec_bitCommand_eq (b : Bool) (s : State) :
    exec (bitCommand b) s = .next (respondActive (receiveBit params b s)) := by
  cases b <;> rfl

/-- Every command answers one OK response of its payload length and writes no other response (R112). -/
theorem exec_eq_respondOk (i : Instr) (s : State) :
    ∃ (t : State) (payload : List Byte), exec i s = .next (t.respondOk payload) ∧ t.responses = s.responses ∧
      payload.length = payloadLength i := by
  cases i with
  | nop => exact ⟨_, _, rfl, rfl, rfl⟩
  | reset => exact ⟨_, _, rfl, rfl, rfl⟩
  | config mode rsv cc delay => exact ⟨_, _, rfl, rfl, rfl⟩
  | status => exact ⟨_, _, rfl, rfl, rfl⟩
  | txsyncPoll => exact ⟨_, _, rfl, rfl, rfl⟩
  | bit0 => exact ⟨_, _, rfl, (receiveBit_streams false s).1, rfl⟩
  | bit1 => exact ⟨_, _, rfl, (receiveBit_streams true s).1, rfl⟩
  | bptcDecode operand => exact ⟨_, _, rfl, rfl, bptc_length params _⟩
  | rsCheck codeword => exact ⟨_, _, rfl, rfl, rfl⟩
  | lcDecodeVh burst => exact ⟨_, _, rfl, rfl, lcPayload_length _⟩
  | lcDecodeTlc burst => exact ⟨_, _, rfl, rfl, lcPayload_length _⟩

/-- Every command answers a next state (R300). -/
theorem exists_exec_next (i : Instr) (s : State) : ∃ t, exec i s = .next t := by
  obtain ⟨t, payload, h, -⟩ := exec_cases i s
  exact ⟨_, h⟩

/-- The response a command appends (R112). -/
theorem responses_of_exec {i : Instr} {s t : State} (h : exec i s = .next t) :
    ∃ payload, t.responses = s.responses ++ [okResponse payload] ∧ payload.length = payloadLength i := by
  obtain ⟨u, payload, hu, hresp, hlen⟩ := exec_eq_respondOk i s
  obtain rfl := Host.Outcome.next.inj (hu.symm.trans h)
  exact ⟨payload, by rw [State.respondOk_responses, hresp]; rfl, hlen⟩

/-- A received bit leaves the configuration alone. -/
theorem receiveBit_configuration (b : Bool) (s : State) :
    (receiveBit params b s).cfgCc = s.cfgCc ∧ (receiveBit params b s).cfgDelay = s.cfgDelay ∧
      (receiveBit params b s).cfgMode = s.cfgMode := by
  obtain ⟨-, h⟩ | ⟨-, h⟩ := receiveBit_cases params b s <;> rw [h]
  · exact ⟨rfl, rfl, rfl⟩
  · obtain ⟨hcc, hdelay, hmode, -⟩ := acceptBit_frame params b s
    exact ⟨hcc, hdelay, hmode⟩

/-- The mode a one-bit field selects (R35). -/
theorem Mode.ofBit_eq_single_iff (mode : BitVec 1) : Mode.ofBit mode = .single ↔ mode = 1 := by
  revert mode
  decide

/-- A command writes the configuration only if it is CONFIG, and then its operands (R33–R35, R283). -/
theorem exec_configuration {i : Instr} {s t : State} (h : exec i s = .next t) :
    (t.cfgCc = s.cfgCc ∧ t.cfgDelay = s.cfgDelay ∧ t.cfgMode = s.cfgMode) ∨
      ∃ mode rsv cc delay, i = .config mode rsv cc delay ∧
        t.cfgCc = cc ∧ t.cfgDelay = delay ∧ (t.cfgMode = .single ↔ mode = 1) := by
  cases i with
  | config mode rsv cc delay =>
    cases h
    exact .inr ⟨mode, rsv, cc, delay, rfl, rfl, rfl, Mode.ofBit_eq_single_iff mode⟩
  | bit0 => cases h; exact .inl (receiveBit_configuration false s)
  | bit1 => cases h; exact .inl (receiveBit_configuration true s)
  | _ => cases h; exact .inl ⟨rfl, rfl, rfl⟩

/-- A received bit leaves the cursor, or is accepted and moves it to the next of 576 positions (R212, R219). -/
theorem receiveBit_ptr (b : Bool) (s : State) :
    (receiveBit params b s).ptr = s.ptr ∨
      (s.delayCnt = 0 ∧ (receiveBit params b s).ptr.toNat = (s.ptr.toNat + 1) % 576) := by
  obtain ⟨-, h⟩ | ⟨hdelay, h⟩ := receiveBit_cases params b s <;> rw [h]
  · exact .inl rfl
  · obtain ⟨-, -, -, hptr, -⟩ := acceptBit_frame params b s
    exact .inr ⟨hdelay, by rw [hptr, position_toNat]⟩

end Sys2Proof.Machine
end

section
/-! Responses and the registers every step keeps: the statements about the commands as a whole. -/

open Sys2Proof Sys2Proof.Machine

/-- Settles O10: the response of the command read, of an illegal opcode, or none while the step waits. -/
theorem everyCommandAppendsOneResponse : Obligations.EveryCommandAppendsOneResponse := by
  unfold Obligations.EveryCommandAppendsOneResponse
  intro length
  have hlength (i : Instr) : payloadLength i = length i := by cases i <;> rfl
  have hexec {i : Instr} {s t : State} (h : exec i s = .next t) :
      ∃ payload, t.responses = s.responses ++ [okResponse payload] ∧ payload.length = length i :=
    hlength i ▸ responses_of_exec h
  refine ⟨fun _ _ _ => hexec, fun s t hstep => ?_⟩
  cases hdecode : decode s.input with
  | command i rest => exact hexec (s := s.withInput rest) ((step_of_command hdecode).symm.trans hstep)
  | illegalOpcode opcode rest => cases (step_of_illegalOpcode hdecode).symm.trans hstep; rfl
  | incomplete => cases (step_of_incomplete hdecode).symm.trans hstep; rfl

/-- Settles O9: each command answers a next state, and so does each of the three kinds of step. -/
theorem everyStepAnswersANextState : Obligations.EveryStepAnswersANextState := by
  refine ⟨fun s => ?_, exists_exec_next⟩
  obtain ⟨t, hstep, -⟩ := step_streams s
  exact ⟨t, hstep⟩

/-- Settles O17: a step that performs no command writes no configuration, and of the commands only CONFIG does. -/
theorem onlyConfigWritesConfiguration : Obligations.OnlyConfigWritesConfiguration := by
  intro s t hstep
  cases hdecode : decode s.input with
  | command i rest =>
    obtain hkept | ⟨mode, rsv, cc, delay, rfl, hwritten⟩ :=
      exec_configuration ((step_of_command hdecode).symm.trans hstep)
    · exact .inl hkept
    · exact .inr ⟨mode, rsv, cc, delay, rest, rfl, hwritten⟩
  | illegalOpcode opcode rest =>
    cases (step_of_illegalOpcode hdecode).symm.trans hstep
    exact .inl ⟨rfl, rfl, rfl⟩
  | incomplete =>
    cases (step_of_incomplete hdecode).symm.trans hstep
    exact .inl ⟨rfl, rfl, rfl⟩

/-- Settles O18: command by command; each of those left only responds, TXSYNC_POLL after clearing `BSSYNC`. -/
theorem interleavedCommandsKeepReceiveState : Obligations.InterleavedCommandsKeepReceiveState := by
  constructor
  · intro i s t h hreceive hconfig
    cases i with
    | reset | bit0 | bit1 => simp at hreceive
    | config mode rsv cc delay => exact absurd rfl (hconfig mode rsv cc delay)
    | txsyncPoll => cases h; exact ⟨rfl, fun hne => absurd rfl hne⟩
    | _ => cases h; exact ⟨rfl, fun _ => rfl⟩
  · intro s t opcode rest hdecode hstep
    cases (step_of_illegalOpcode hdecode).symm.trans hstep
    rfl

/-- Settles O19: BIT moves the cursor if it is accepted, RESET and CONFIG clear it, no other command writes it. -/
theorem cursorAdvancesOrResets : Obligations.CursorAdvancesOrResets := by
  intro i s t h
  cases i with
  | reset => cases h; exact .inr (.inr ⟨.inl rfl, rfl⟩)
  | config mode rsv cc delay => cases h; exact .inr (.inr ⟨.inr ⟨mode, rsv, cc, delay, rfl⟩, rfl⟩)
  | bit0 => cases h; exact (receiveBit_ptr false s).imp_right fun hmoved => .inl ⟨.inl rfl, hmoved⟩
  | bit1 => cases h; exact (receiveBit_ptr true s).imp_right fun hmoved => .inl ⟨.inr rfl, hmoved⟩
  | _ => cases h; exact .inl rfl

/-- Settles O20: the events of BIT grow; the other commands do not write them. -/
theorem eventsAreOnlyAppendedByBits : Obligations.EventsAreOnlyAppendedByBits := by
  intro i s t h
  obtain ⟨u, response, hu, -, -, hprefix⟩ := exec_streams i s
  obtain rfl := Host.Outcome.next.inj (hu.symm.trans h)
  refine ⟨hprefix, fun hne0 hne1 => ?_⟩
  cases i with
  | bit0 => exact absurd rfl hne0
  | bit1 => exact absurd rfl hne1
  | _ => cases h; rfl

/-- Settles O37: what the receiver's frame lemma keeps, and the response to the state it leaves. -/
theorem acceptedBitCompletes : Obligations.AcceptedBitCompletes := by
  intro s b hdelay
  obtain ⟨hdelayed, -⟩ | ⟨-, haccept⟩ := receiveBit_cases params b s
  · exact absurd hdelay hdelayed
  obtain ⟨hcc, hcfgDelay, hmode, hptr, hcount, hresp, hinput, hevents⟩ := acceptBit_frame params b s
  refine ⟨respondActive (acceptBit params b s), by rw [exec_bitCommand_eq, haccept], ?_, ?_, hevents, hcc, hcfgDelay, hmode, hcount.trans hdelay, hinput⟩
  · exact (congrArg BitVec.toNat hptr).trans (position_toNat _)
  · rw [respondActive, State.respondOk_responses, hresp, flagByte_active]
    rfl

end

section
/-! Control commands and stateless decoders: the statements about what each writes. -/

open Sys2Proof Sys2Proof.Machine

/-- Settles O12: RESET is `RECEIVE_RESET` and a response, and a second `RECEIVE_RESET` changes nothing. -/
theorem resetClearsReceiveState : Obligations.ResetClearsReceiveState := by
  refine ⟨exec_reset, fun s t u ht hu => ?_⟩
  cases ht
  cases hu
  rfl

/-- Settles O13: CONFIG is the three registers, `RECEIVE_RESET` and a response; the mode bit by its two values. -/
theorem configWritesAndResets : Obligations.ConfigWritesAndResets := by
  intro s mode rsv cc delay
  have hmode : Mode.ofBit mode = if mode = 1 then .single else .duplex := by revert mode; decide
  rw [← hmode]
  rfl

/-- Settles O15: TXSYNC_POLL answers `BSSYNC` and clears it, so that a second poll answers 0. -/
theorem txsyncPollReadsAndClears : Obligations.TxsyncPollReadsAndClears := by
  refine ⟨fun s => rfl, fun s t ht => ?_⟩
  cases ht
  rfl

/-- Settles O21: the payload is a function of the operand alone. -/
theorem decodersReadNoState : Obligations.DecodersReadNoState := by
  intro operand
  exact ⟨⟨_, bptc_length params (codedOperand operand), fun s => rfl⟩,
    ⟨[if rsValid params operand then 0x01 else 0x00], rfl, fun s => rfl⟩,
    fun kind => ⟨_, lcPayload_length (lcx params (burstOperand operand) kind), exec_lcCommand kind operand⟩⟩

end

section
/-! SUPPORT. Burst completion as the events it appends and the record it leaves (43_slot_receiver.md R231–R245). -/

namespace Sys2Proof.Machine

open Sys2Proof.Config (Params BurstClass)

/-! ### A state with events appended and one record rewritten -/

/-- `s` with `es` appended to the events and `r` as the record of slot `k`: what a completion makes of `s`, but for the
clear of R244 (`complete_of_kept`, `complete_of_lost`). -/
def State.withCompletion (s : State) (k : SlotId) (es : List Event) (r : SlotRec) : State :=
  ({ s with events := s.events ++ es } : State).setSlot k r

@[simp] theorem State.withCompletion_slot_self (s : State) (k : SlotId) (es : List Event) (r : SlotRec) :
    (s.withCompletion k es r).slot k = r := State.slot_setSlot_self _ k r

@[simp] theorem State.withCompletion_slot_other (s : State) (k : SlotId) (es : List Event) (r : SlotRec) :
    (s.withCompletion k es r).slot k.other = s.slot k.other := State.slot_setSlot_other _ k r

@[simp] theorem State.withCompletion_events (s : State) (k : SlotId) (es : List Event) (r : SlotRec) :
    (s.withCompletion k es r).events = s.events ++ es := State.setSlot_events _ k r

@[simp] theorem State.withCompletion_cfgMode (s : State) (k : SlotId) (es : List Event) (r : SlotRec) :
    (s.withCompletion k es r).cfgMode = s.cfgMode := State.setSlot_cfgMode _ k r

@[simp] theorem State.withCompletion_cfgCc (s : State) (k : SlotId) (es : List Event) (r : SlotRec) :
    (s.withCompletion k es r).cfgCc = s.cfgCc := State.setSlot_cfgCc _ k r

@[simp] theorem State.emit_withCompletion (s : State) (k : SlotId) (es : List Event) (r : SlotRec) (e : Event) :
    (s.withCompletion k es r).emit e = s.withCompletion k (es ++ [e]) r := by
  cases k <;> simp [State.withCompletion, State.emit, State.setSlot]

@[simp] theorem State.modifySlot_withCompletion (s : State) (k : SlotId) (es : List Event) (r : SlotRec)
    (f : SlotRec → SlotRec) : (s.withCompletion k es r).modifySlot k f = s.withCompletion k es (f r) := by
  cases k <;> rfl

@[simp] theorem State.resetSlot_withCompletion (s : State) (k : SlotId) (es : List Event) (r : SlotRec) :
    (s.withCompletion k es r).resetSlot k = s.withCompletion k es SlotRec.reset := by
  cases k <;> rfl

/-- No event and a rewritten record. -/
theorem State.withCompletion_nil (s : State) (k : SlotId) (r : SlotRec) : s.withCompletion k [] r = s.setSlot k r := by
  cases k <;> simp [State.withCompletion, State.setSlot]

/-! ### The parts of a completion -/

/-- The record idle disarm leaves (R245); `idleDisarm_withCompletion` ties it to `idleDisarm`. -/
def SlotRec.disarmIfIdle (r : SlotRec) : SlotRec :=
  if r.st = .idle then { r with endPos := none, expSync := none, miss := 0 } else r

theorem SlotRec.disarmIfIdle_of_idle {r : SlotRec} (h : r.st = .idle) :
    r.disarmIfIdle = { r with endPos := none, expSync := none, miss := 0 } := if_pos h

theorem SlotRec.disarmIfIdle_of_ne {r : SlotRec} (h : r.st ≠ .idle) : r.disarmIfIdle = r := if_neg h

theorem SlotRec.disarmIfIdle_of_miss_zero {r : SlotRec} (h : r.miss = 0) :
    r.disarmIfIdle = if r.st = .idle then { r with endPos := none, expSync := none } else r := by
  rw [SlotRec.disarmIfIdle, ← h]

@[simp] theorem SlotRec.disarmIfIdle_reset : SlotRec.reset.disarmIfIdle = SlotRec.reset := rfl

theorem idleDisarm_withCompletion (s : State) (k : SlotId) (es : List Event) (r : SlotRec) :
    idleDisarm k (s.withCompletion k es r) = s.withCompletion k es r.disarmIfIdle := by
  by_cases h : r.st = .idle
  · simp [idleDisarm, SlotRec.disarmIfIdle, h]
  · simp [idleDisarm, SlotRec.disarmIfIdle, h]

/-- The record with one more miss if the slot was in a call (R235, R241). -/
def SlotRec.countMiss (st0 : CallState) (r : SlotRec) : SlotRec :=
  if st0 = .idle then r else { r with miss := r.miss + 1 }

theorem countMiss_withCompletion (s : State) (k : SlotId) (st0 : CallState) (es : List Event) (r : SlotRec) :
    countMiss k st0 (s.withCompletion k es r) = s.withCompletion k es (r.countMiss st0) := by
  by_cases h : st0 = .idle <;> simp [countMiss, SlotRec.countMiss, h]

/-- The `LC` event of a data-sync burst, if it has one (R238). -/
def lcEvents (P : Params) (k : SlotId) (burst : Burst) (dt : BitVec 4) : List Event :=
  match lcKindOf dt with
  | none => []
  | some kind => ((lcx P burst kind).map fun x => Event.lc k kind x.1 x.2).toList

theorem surfaceLc_withCompletion (P : Params) (s : State) (k : SlotId) (burst : Burst) (dt : BitVec 4)
    (es : List Event) (r : SlotRec) :
    surfaceLc P k burst dt (s.withCompletion k es r) = s.withCompletion k (es ++ lcEvents P k burst dt) r := by
  unfold surfaceLc lcEvents
  cases lcKindOf dt with
  | none => simp
  | some kind => cases hlc : lcx P burst kind <;> simp [hlc]

theorem acceptedBurst_withCompletion (P : Params) (s : State) (k : SlotId) (st0 : CallState) (burst : Burst)
    (dt : BitVec 4) (r : SlotRec) :
    acceptedBurst P k st0 burst dt (s.withCompletion k [] r) =
      s.withCompletion k (.burst k (typeDataSync dt) (payloadOf burst) :: lcEvents P k burst dt)
        (subTypeWrites dt st0 { r with miss := 0 }) := by
  simp [acceptedBurst, surfaceLc_withCompletion]

theorem voiceSyncBurst_withCompletion (P : Params) (s : State) (k : SlotId) (st0 : CallState) (burst : Burst)
    (r : SlotRec) :
    voiceSyncBurst P k st0 burst (s.withCompletion k [] r) =
      s.withCompletion k [.burst k typeVoiceSync (payloadOf burst)]
        { r with n := 0, miss := 0, st := if P.voiceLateEntry ∧ st0 ≠ .voice then .voice else r.st } := by
  simp [voiceSyncBurst]

/-- The event of a predicted frame (R240). -/
def predictedEvents (k : SlotId) (st0 : CallState) (burst : Burst) (r : SlotRec) : List Event :=
  if st0 = .voice then
    [.burst k (if 5 ≤ r.n.toNat then 0x20 else BitVec.ofNat 8 (r.n.toNat + 1)) (payloadOf burst)]
  else []

/-- The record after a predicted frame (R240). -/
def SlotRec.predicted (st0 : CallState) (r : SlotRec) : SlotRec :=
  if st0 = .voice then { r with n := if 5 ≤ r.n.toNat then 0 else r.n + 1 } else r

/-- The type byte of a predicted frame after positions 0–4 is the next position (30_encoding.md R107). -/
theorem typeVoicePosition_add_one {n : BitVec 3} (h : ¬ 5 ≤ n.toNat) :
    typeVoicePosition (n + 1) = BitVec.ofNat 8 (n.toNat + 1) := by
  revert n
  decide

theorem predictedFrame_withCompletion (s : State) (k : SlotId) (st0 : CallState) (burst : Burst) (r : SlotRec) :
    predictedFrame k st0 burst (s.withCompletion k [] r) =
      s.withCompletion k (predictedEvents k st0 burst r) (r.predicted st0) := by
  unfold predictedFrame predictedEvents SlotRec.predicted
  by_cases hvoice : st0 = .voice
  · by_cases hlast : 5 ≤ r.n.toNat
    · simp [hvoice, hlast, typeVoiceSync]
    · simp only [hvoice, hlast, if_true, if_false, State.withCompletion_slot_self, State.emit_withCompletion,
        State.modifySlot_withCompletion, List.nil_append, typeVoicePosition_add_one hlast]
  · simp [hvoice]

/-! ### A completion by what framed the burst -/

/-- The burst a completion of slot `k` assembles (R231). -/
def State.burstOf (s : State) (k : SlotId) : Burst := assemble s.buf s.ptr (s.slot k).inv

/-- The part of a completion before the loss check of R243: `SEEN` cleared, then R233–R241 on the snapshot. -/
def completionFrame (P : Params) (k : SlotId) (s : State) : State :=
  frameBurst P k (s.slot k) (s.burstOf k) (s.withCompletion k [] { s.slot k with seen := false })

theorem complete_eq_completionFrame (P : Params) (k : SlotId) (s : State) :
    complete P k s = idleDisarm k (syncLoss P k (completionFrame P k s)) := by
  rw [completionFrame, State.withCompletion_nil]
  rfl

/-- A voice-sync burst (R233). -/
theorem completionFrame_of_voice {P : Params} {k : SlotId} {s : State} (hseen : (s.slot k).seen = true)
    (hkind : (s.slot k).kind = .voice) :
    completionFrame P k s = s.withCompletion k [.burst k typeVoiceSync (payloadOf (s.burstOf k))]
      { s.slot k with
        seen := false, n := 0, miss := 0
        st := if P.voiceLateEntry ∧ (s.slot k).st ≠ .voice then .voice else (s.slot k).st } := by
  rw [completionFrame, frameBurst, if_pos hseen, hkind]
  exact voiceSyncBurst_withCompletion P s k _ _ _

/-- A data-sync burst of another colour code in duplex mode (R235). -/
theorem completionFrame_of_discarded {P : Params} {k : SlotId} {s : State} (hseen : (s.slot k).seen = true)
    (hkind : (s.slot k).kind = .data) (hmode : s.cfgMode = .duplex)
    (hcc : (P.classify (s.burstOf k)).1 ≠ s.cfgCc) :
    completionFrame P k s =
      s.withCompletion k [] (SlotRec.countMiss (s.slot k).st { s.slot k with seen := false }) := by
  rw [completionFrame, frameBurst, if_pos hseen, hkind, ← countMiss_withCompletion]
  exact if_pos ⟨by simpa using hmode, by simpa using hcc⟩

/-- An accepted data-sync burst (R236–R238). -/
theorem completionFrame_of_accepted {P : Params} {k : SlotId} {s : State} (hseen : (s.slot k).seen = true)
    (hkind : (s.slot k).kind = .data) (haccepted : s.cfgMode = .single ∨ (P.classify (s.burstOf k)).1 = s.cfgCc) :
    completionFrame P k s = s.withCompletion k
      (.burst k (typeDataSync (P.classify (s.burstOf k)).2) (payloadOf (s.burstOf k)) ::
        lcEvents P k (s.burstOf k) (P.classify (s.burstOf k)).2)
      (subTypeWrites (P.classify (s.burstOf k)).2 (s.slot k).st { s.slot k with seen := false, miss := 0 }) := by
  rw [completionFrame, frameBurst, if_pos hseen, hkind]
  refine (if_neg ?_).trans (acceptedBurst_withCompletion P s k _ _ _ _)
  rw [State.withCompletion_cfgMode, State.withCompletion_cfgCc]
  rintro ⟨hduplex, hcc⟩
  rcases haccepted with hsingle | heq
  · cases hsingle.symm.trans hduplex
  · exact hcc heq

/-- A period without a match (R240, R241). -/
theorem completionFrame_of_missed {P : Params} {k : SlotId} {s : State} (hseen : (s.slot k).seen = false) :
    completionFrame P k s = s.withCompletion k (predictedEvents k (s.slot k).st (s.burstOf k) (s.slot k))
      (SlotRec.countMiss (s.slot k).st (SlotRec.predicted (s.slot k).st (s.slot k))) := by
  have hrec : ({ s.slot k with seen := false } : SlotRec) = s.slot k := by rw [← hseen]
  rw [completionFrame, frameBurst, hseen, if_neg Bool.false_ne_true, hrec, predictedFrame_withCompletion,
    countMiss_withCompletion]

/-- The four kinds of period end (R232): no match, a voice-sync burst, a data-sync burst discarded or accepted. -/
theorem completion_kinds (P : Params) (k : SlotId) (s : State) :
    (s.slot k).seen = false ∨ ((s.slot k).seen = true ∧ (s.slot k).kind = .voice) ∨
      ((s.slot k).seen = true ∧ (s.slot k).kind = .data ∧ s.cfgMode = .duplex ∧
        (P.classify (s.burstOf k)).1 ≠ s.cfgCc) ∨
      ((s.slot k).seen = true ∧ (s.slot k).kind = .data ∧
        (s.cfgMode = .single ∨ (P.classify (s.burstOf k)).1 = s.cfgCc)) := by
  cases (s.slot k).seen <;> cases (s.slot k).kind <;> cases s.cfgMode <;> simp [ne_or_eq]

/-- A completion whose record counts fewer misses than the threshold, or is IDLE, ends there (R243, R245). -/
theorem complete_of_kept {P : Params} {k : SlotId} {s : State} {es : List Event} {r : SlotRec}
    (hframe : completionFrame P k s = s.withCompletion k es r)
    (hkept : r.st = .idle ∨ r.miss.toNat < lossN P s.cfgMode) :
    complete P k s = s.withCompletion k es r.disarmIfIdle := by
  have hnot : ¬ (r.st ≠ .idle ∧ lossN P s.cfgMode ≤ r.miss.toNat) := by
    rintro ⟨hst, hmiss⟩
    exact hkept.elim hst (Nat.not_lt.mpr hmiss)
  have hloss : syncLoss P k (s.withCompletion k es r) = s.withCompletion k es r := if_neg (by simpa using hnot)
  rw [complete_eq_completionFrame, hframe, hloss, idleDisarm_withCompletion]

/-- The bits a duplex loss clears (R244). -/
def State.clearIfDuplex (s : State) : State :=
  match s.cfgMode with
  | .duplex => s.clearBits
  | .single => s

theorem State.clearIfDuplex_of_duplex {s : State} (h : s.cfgMode = .duplex) : s.clearIfDuplex = s.clearBits := by
  simp [State.clearIfDuplex, h]

theorem State.clearIfDuplex_of_single {s : State} (h : s.cfgMode = .single) : s.clearIfDuplex = s := by
  simp [State.clearIfDuplex, h]

/-- At the threshold a slot in a call is lost (R243, R244). -/
theorem syncLoss_of_lost {P : Params} {k : SlotId} {s : State} (hst : (s.slot k).st ≠ .idle)
    (hmiss : lossN P s.cfgMode ≤ (s.slot k).miss.toNat) :
    syncLoss P k s = ((s.emit (.lost k)).resetSlot k).clearIfDuplex := by
  obtain ⟨hnot, -⟩ | ⟨-, -, ⟨hmode, h⟩ | ⟨hmode, h⟩⟩ := syncLoss_cases P k s
  · exact absurd ⟨hst, hmiss⟩ hnot
  · rw [h, State.clearIfDuplex_of_duplex (by simpa using hmode)]
  · rw [h, State.clearIfDuplex_of_single (by simpa using hmode)]

/-- Idle disarm writes no bit that the clear of R244 writes. -/
theorem idleDisarm_clearIfDuplex (k : SlotId) (s : State) :
    idleDisarm k s.clearIfDuplex = (idleDisarm k s).clearIfDuplex := by
  cases hmode : s.cfgMode with
  | duplex =>
    have hkept : (idleDisarm k s).cfgMode = .duplex := (idleDisarm_reach k s).frame.2.2.1.trans hmode
    rw [State.clearIfDuplex_of_duplex hmode, State.clearIfDuplex_of_duplex hkept]
    unfold idleDisarm
    rw [State.clearBits_slot]
    split
    · cases k <;> rfl
    · rfl
  | single =>
    have hkept : (idleDisarm k s).cfgMode = .single := (idleDisarm_reach k s).frame.2.2.1.trans hmode
    rw [State.clearIfDuplex_of_single hmode, State.clearIfDuplex_of_single hkept]

/-- A completion whose record reaches the threshold in a call loses it (R243, R244). -/
theorem complete_of_lost {P : Params} {k : SlotId} {s : State} {es : List Event} {r : SlotRec}
    (hframe : completionFrame P k s = s.withCompletion k es r)
    (hst : r.st ≠ .idle) (hmiss : lossN P s.cfgMode ≤ r.miss.toNat) :
    complete P k s = (s.withCompletion k (es ++ [.lost k]) SlotRec.reset).clearIfDuplex := by
  rw [complete_eq_completionFrame, hframe, syncLoss_of_lost (by simpa using hst) (by simpa using hmiss), State.emit_withCompletion,
    State.resetSlot_withCompletion, idleDisarm_clearIfDuplex, idleDisarm_withCompletion, SlotRec.disarmIfIdle_reset]

/-- The transition table of R237 by the data type's number. -/
theorem subTypeWrites_eq (dt : BitVec 4) (st0 : CallState) (r : SlotRec) :
    subTypeWrites dt st0 r =
      { r with
        st := if dt = 0 ∨ dt = 1 then .voice else if dt = 2 then .idle else if dt = 6 then .data else r.st
        n := if dt = 0 ∨ dt = 1 then 5 else r.n
        tag := if dt = 6 then some 6 else if (dt = 7 ∨ dt = 8 ∨ dt = 10) ∧ st0 = .data then some dt else r.tag } := by
  have hclass : (dt = 0 ∧ burstClass dt = .piHeader) ∨ (dt = 1 ∧ burstClass dt = .vlcHeader) ∨
      (dt = 2 ∧ burstClass dt = .tlc) ∨ (dt = 6 ∧ burstClass dt = .dataHeader) ∨ (dt = 7 ∧ burstClass dt = .rate12) ∨
      (dt = 8 ∧ burstClass dt = .rate34) ∨ (dt = 10 ∧ burstClass dt = .rate1) ∨
      (burstClass dt = .shortControl ∧ dt ≠ 0 ∧ dt ≠ 1 ∧ dt ≠ 2 ∧ dt ≠ 6 ∧ dt ≠ 7 ∧ dt ≠ 8 ∧ dt ≠ 10) := by
    revert dt
    decide
  unfold subTypeWrites
  obtain ⟨rfl, h⟩ | ⟨rfl, h⟩ | ⟨rfl, h⟩ | ⟨rfl, h⟩ | ⟨rfl, h⟩ | ⟨rfl, h⟩ | ⟨rfl, h⟩ | ⟨h, hne⟩ := hclass
  case inr.inr.inr.inr.inr.inr.inr =>
    simp at hne
    simp [h, hne]
  all_goals
    rw [h]
    by_cases hst : st0 = .data <;> simp [hst]

/-- The LC kind of R237 by the data type's number. -/
theorem lcKindOf_eq (dt : BitVec 4) :
    lcKindOf dt = if dt = 1 then some .vh else if dt = 2 then some .tlc else none := by
  revert dt
  decide

theorem Mode.duplex_or_single (mode : Mode) : mode = .duplex ∨ mode = .single := by
  cases mode <;> decide

/-- The loss thresholds of the two modes (R243). -/
theorem lossN_params (mode : Mode) : lossN params mode = match mode with | .duplex => 13 | .single => 30 := by
  cases mode <;> rfl

theorem lossN_params_pos (mode : Mode) : 0 < lossN params mode := by
  cases mode <;> decide

/-- The `LC` event by the data type's number (R237, R238). -/
theorem lcEvents_eq (P : Params) (k : SlotId) (burst : Burst) (dt : BitVec 4) :
    lcEvents P k burst dt =
      if dt = 1 then ((lcx P burst .vh).map fun x => Event.lc k .vh x.1 x.2).toList
      else if dt = 2 then ((lcx P burst .tlc).map fun x => Event.lc k .tlc x.1 x.2).toList
      else [] := by
  rw [lcEvents, lcKindOf_eq]
  by_cases h1 : dt = 1
  · rw [if_pos h1, if_pos h1]
  · rw [if_neg h1, if_neg h1]
    by_cases h2 : dt = 2
    · rw [if_pos h2, if_pos h2]
    · rw [if_neg h2, if_neg h2]

/-- A miss that does not wrap the counter. -/
theorem toNat_miss_add_one {miss : BitVec 5} (h : miss.toNat + 1 < 32) : (miss + 1).toNat = miss.toNat + 1 := by
  bv_omega

/-- One more miss below the threshold stays below it. -/
theorem toNat_miss_add_one_lt_lossN {mode : Mode} {miss : BitVec 5}
    (h : miss.toNat + 1 < match mode with | .duplex => 13 | .single => 30) :
    (miss + 1).toNat < lossN params mode := by
  have hwrap : miss.toNat + 1 < 32 := by cases mode <;> exact h.trans (by decide)
  rw [toNat_miss_add_one hwrap, lossN_params]
  exact h

/-- The miss that reaches the threshold. -/
theorem lossN_le_toNat_miss_add_one {mode : Mode} {miss : BitVec 5}
    (h : miss.toNat + 1 = match mode with | .duplex => 13 | .single => 30) :
    lossN params mode ≤ (miss + 1).toNat := by
  have hwrap : miss.toNat + 1 < 32 := by cases mode <;> exact h.trans_lt (by decide)
  rw [toNat_miss_add_one hwrap, lossN_params]
  exact h.ge

end Sys2Proof.Machine
end

section
/-! Burst completion: the statements about what each kind of period end appends and writes. -/

open Sys2Proof Sys2Proof.Machine

/-- Settles O48: the positions of the assembled burst, and the packing of its bits into bytes read back. -/
theorem burstIsTheLast264Bits : Obligations.BurstIsTheLast264Bits := by
  intro buf p inv i hi
  constructor
  · rw [assemble, getLsbD_ofBits, decide_eq_true hi, Bool.true_and]
    rfl
  · have hpacked : (bits 264 (payloadOf (assemble buf p inv))).getLsbD i = (assemble buf p inv).getLsbD i := by
      rw [payloadOf, bits_bytesOf 33 _ (by decide)]
    rw [← hpacked, getLsbD_bits, decide_eq_true hi, Bool.true_and]
    rfl

/-- Settles O49: the voice-sync burst leaves `MISS` 0, below either threshold. -/
theorem voiceSyncBurstCompletion : Obligations.VoiceSyncBurstCompletion := by
  intro s k hseen hkind
  rw [complete_of_kept (completionFrame_of_voice hseen hkind) (.inr (lossN_params_pos s.cfgMode))]
  by_cases hst : (s.slot k).st = .idle <;>
    simp [SlotRec.disarmIfIdle, hst, params, State.withCompletion, typeVoiceSync, State.burstOf]

/-- Settles O50: a discarded burst only counts a miss, by the call state and by whether the count reaches 13. -/
theorem colourCodeMismatchIsDiscarded : Obligations.ColourCodeMismatchIsDiscarded := by
  intro s k hmode hseen hkind hcc
  have hframe := completionFrame_of_discarded (P := params) hseen hkind hmode hcc
  have hthreshold : lossN params s.cfgMode = 13 := by rw [hmode]; rfl
  refine ⟨fun hst => ?_, fun hst hmiss => ?_, fun hst hmiss => ?_⟩
  · rw [SlotRec.countMiss, if_pos hst] at hframe
    rw [complete_of_kept hframe (.inl hst), State.withCompletion_nil]
    simp [SlotRec.disarmIfIdle, hst]
  · rw [SlotRec.countMiss, if_neg hst] at hframe
    have hcount : ((s.slot k).miss + 1).toNat < lossN params s.cfgMode := by
      rw [toNat_miss_add_one (by omega), hthreshold]; exact hmiss
    rw [complete_of_kept hframe (.inr hcount), State.withCompletion_nil]
    simp [SlotRec.disarmIfIdle, hst]
  · rw [SlotRec.countMiss, if_neg hst] at hframe
    have hcount : lossN params s.cfgMode ≤ ((s.slot k).miss + 1).toNat := by
      rw [toNat_miss_add_one (by omega), hthreshold]; exact hmiss.ge
    rw [complete_of_lost hframe hst hcount, State.clearIfDuplex_of_duplex (by simpa using hmode)]
    cases k <;> rfl

/-- Settles O51: the accepted burst's events, and the transition table by the data type's number. -/
theorem acceptedDataSyncCompletion : Obligations.AcceptedDataSyncCompletion := by
  intro s k burst dt r hseen hkind hburst haccepted hdt hr
  subst hburst
  have hframe := completionFrame_of_accepted (P := params) hseen hkind haccepted
  have hmiss : r.miss.toNat < lossN params s.cfgMode := by rw [hr]; exact lossN_params_pos s.cfgMode
  have hwrites : subTypeWrites dt (s.slot k).st { s.slot k with seen := false, miss := 0 } = r := by
    rw [subTypeWrites_eq, hr]
  rw [← show dt = (params.classify (s.burstOf k)).2 from hdt, hwrites] at hframe
  rw [complete_of_kept hframe (.inr hmiss), SlotRec.disarmIfIdle_of_miss_zero (by rw [hr]), lcEvents_eq,
    List.append_assoc]
  rfl

/-- Settles O52: one miss below the threshold, after the predicted frame of a voice call. -/
theorem missedPeriodOfACall : Obligations.MissedPeriodOfACall := by
  intro s k hseen hmiss
  have hkept : ((s.slot k).miss + 1).toNat < lossN params s.cfgMode := toNat_miss_add_one_lt_lossN hmiss
  have hframe := completionFrame_of_missed (P := params) hseen
  constructor <;> intro hst
  · rw [hst] at hframe
    rw [complete_of_kept hframe (.inr hkept), SlotRec.disarmIfIdle_of_ne (by simp [SlotRec.countMiss, SlotRec.predicted, hst])]
    simp [predictedEvents, SlotRec.countMiss, SlotRec.predicted, State.withCompletion, State.burstOf]
  · rw [hst] at hframe
    rw [complete_of_kept hframe (.inr hkept), SlotRec.disarmIfIdle_of_ne (by simp [SlotRec.countMiss, SlotRec.predicted, hst])]
    simp [predictedEvents, SlotRec.countMiss, SlotRec.predicted, State.withCompletion_nil]

/-- Settles O53: an IDLE slot predicts no frame and counts no miss. -/
theorem missedPeriodOfAnIdleSlot : Obligations.MissedPeriodOfAnIdleSlot := by
  intro s k hseen hst
  have hframe := completionFrame_of_missed (P := params) hseen
  rw [hst] at hframe
  rw [complete_of_kept hframe (.inl hst)]
  simp [predictedEvents, SlotRec.countMiss, SlotRec.predicted, SlotRec.disarmIfIdle, hst, State.withCompletion_nil]

/-- Settles O54: the miss that reaches the threshold loses the call. -/
theorem syncLossAtTheThreshold : Obligations.SyncLossAtTheThreshold := by
  intro s k hseen hst hmiss
  have hlost : lossN params s.cfgMode ≤ ((s.slot k).miss + 1).toNat := lossN_le_toNat_miss_add_one hmiss
  have hframe := completionFrame_of_missed (P := params) hseen
  rw [SlotRec.countMiss, if_neg hst] at hframe
  have hcall : (SlotRec.predicted (s.slot k).st (s.slot k)).st ≠ .idle := by
    unfold SlotRec.predicted; split <;> exact hst
  have hcount : (SlotRec.predicted (s.slot k).st (s.slot k)).miss = (s.slot k).miss := by
    unfold SlotRec.predicted; split <;> rfl
  rw [complete_of_lost hframe hcall (by simpa only [hcount] using hlost), List.append_assoc]
  obtain hmode | hmode := s.cfgMode.duplex_or_single
  · rw [State.clearIfDuplex_of_duplex (by simpa using hmode), if_pos hmode, if_pos hmode]
    cases k <;> rfl
  · have hne : s.cfgMode ≠ .duplex := by rw [hmode]; decide
    rw [State.clearIfDuplex_of_single (by simpa using hmode), if_neg hne, if_neg hne]
    cases k <;> rfl

end

section
/-! SUPPORT. The flywheel's period end in one equation, and by whether it unlocks (43_slot_receiver.md R262–R266). -/

namespace Sys2Proof.Machine

open Sys2Proof.Config (Params)

/-- Off, the flywheel does nothing (R262). -/
theorem flywheel_of_off (P : Params) {s : State} (h : s.cfgMode = .duplex ∨ s.locked = false) : flywheel P s = s := by
  apply if_neg
  rintro ⟨hmode, hlocked⟩
  rcases h with h | h
  · cases h.symm.trans hmode
  · cases h.symm.trans hlocked

/-- Within a slot period a locked flywheel counts (R262). -/
theorem flywheel_of_within (P : Params) {s : State} (hmode : s.cfgMode = .single) (hlocked : s.locked = true)
    (htimer : s.slotTimer ≠ 287) : flywheel P s = { s with slotTimer := s.slotTimer + 1 } :=
  (if_pos ⟨hmode, hlocked⟩).trans (if_neg htimer)

/-- At its last bit a slot period ends (R262). -/
theorem flywheel_of_periodEnd (P : Params) {s : State} (hmode : s.cfgMode = .single) (hlocked : s.locked = true)
    (htimer : s.slotTimer = 287) : flywheel P s = periodEnd P s :=
  (if_pos ⟨hmode, hlocked⟩).trans (if_pos htimer)

theorem slotTimer_eq_iff {timer : BitVec 9} : timer = 287 ↔ timer.toNat = 287 := by
  constructor
  · rintro rfl; rfl
  · exact fun h => BitVec.eq_of_toNat_eq h

theorem slotTimer_add_one (timer : BitVec 9) : timer + 1 = BitVec.ofNat 9 (timer.toNat + 1) := by
  bv_omega

/-- Before a period's end step 4 at most counts (R262). -/
theorem flywheel_before_periodEnd (P : Params) {s : State}
    (h : s.cfgMode = .duplex ∨ s.locked = false ∨ s.slotTimer.toNat < 287) :
    ∃ timer, flywheel P s = { s with slotTimer := timer } ∧
      timer.toNat = if s.cfgMode = .single ∧ s.locked = true then s.slotTimer.toNat + 1 else s.slotTimer.toNat := by
  obtain ⟨hoff, hfly⟩ | ⟨hmode, hlocked, -, hfly⟩ | ⟨hmode, hlocked, hend, -⟩ := flywheel_cases P s
  · exact ⟨s.slotTimer, hfly, (if_neg hoff).symm⟩
  · have hbelow : s.slotTimer.toNat < 287 := by simpa [hmode, hlocked] using h
    refine ⟨s.slotTimer + 1, hfly, ?_⟩
    rw [if_pos ⟨hmode, hlocked⟩]
    bv_omega
  · simp [hmode, hlocked, hend] at h

/-- The CACH at the start of the slot period now ending names another slot than `CURSLOT` (R263). -/
def phaseDisagrees (P : Params) (s : State) : Bool :=
  decide (tactSlot P s.buf (backFrom s.ptr 287) ≠ s.curSlot)

/-- The second disagreement in a row (R264). -/
def phaseSwaps (P : Params) (s : State) : Bool := phaseDisagrees P s && decide (s.misMatch.toNat = 1)

theorem phaseSwaps_iff (P : Params) (s : State) :
    phaseSwaps P s = true ↔ s.misMatch = 1 ∧ tactSlot P s.buf (backFrom s.ptr 287) ≠ s.curSlot := by
  have hone : s.misMatch.toNat = 1 ↔ s.misMatch = 1 := ⟨fun h => BitVec.eq_of_toNat_eq h, fun h => h ▸ rfl⟩
  simp [phaseSwaps, phaseDisagrees, hone, and_comm]

/-- Phase check and correction: a second disagreement exchanges the records and the current slot (R263, R264). -/
theorem phaseCorrect_phaseCheck {P : Params} {s : State} (hmis : s.misMatch.toNat ≤ 1) :
    phaseCorrect (phaseCheck P s) =
      { s with
        slot0 := if phaseSwaps P s then s.slot1 else s.slot0
        slot1 := if phaseSwaps P s then s.slot0 else s.slot1
        misMatch := if phaseDisagrees P s && !phaseSwaps P s then 1 else 0
        curSlot := if phaseSwaps P s then s.curSlot.other else s.curSlot } := by
  rw [phaseCheck_eq, phaseCorrect]
  by_cases hagree : tactSlot P s.buf (backFrom s.ptr 287) = s.curSlot
  · simp [hagree, phaseSwaps, phaseDisagrees]
  · by_cases hone : s.misMatch.toNat = 1
    · have hmis1 : s.misMatch = 1 := BitVec.eq_of_toNat_eq hone
      simp [hagree, phaseSwaps, phaseDisagrees, hmis1]
    · have hmis0 : s.misMatch = 0 := BitVec.eq_of_toNat_eq (by simp; omega)
      simp [hagree, phaseSwaps, phaseDisagrees, hmis0]

/-- The state at a period end before unlock or wrap (R263–R265). -/
def periodCount (P : Params) (s : State) : State := countNoSync (phaseCorrect (phaseCheck P s))

theorem periodCount_eq {P : Params} {s : State} (hmis : s.misMatch.toNat ≤ 1) :
    periodCount P s =
      { s with
        slot0 := if phaseSwaps P s then s.slot1 else s.slot0
        slot1 := if phaseSwaps P s then s.slot0 else s.slot1
        misMatch := if phaseDisagrees P s && !phaseSwaps P s then 1 else 0
        curSlot := if phaseSwaps P s then s.curSlot.other else s.curSlot
        noSync := (countNoSync s).noSync
        syncP := false } := by
  rw [periodCount, phaseCorrect_phaseCheck hmis]
  rfl

/-- The wrap, as the whole change of a period end that does not unlock (R263–R266). -/
theorem periodEnd_of_wrap {P : Params} {s : State} (hmis : s.misMatch.toNat ≤ 1)
    (hunlock : unlockDue P (periodCount P s) = false) :
    periodEnd P s =
      { s with
        slot0 := if phaseSwaps P s then s.slot1 else s.slot0
        slot1 := if phaseSwaps P s then s.slot0 else s.slot1
        misMatch := if phaseDisagrees P s && !phaseSwaps P s then 1 else 0
        noSync := (countNoSync s).noSync
        syncP := false
        slotTimer := 0
        curSlot := if phaseSwaps P s then s.curSlot else s.curSlot.other } := by
  have hcur : (if phaseSwaps P s then s.curSlot.other else s.curSlot).other =
      if phaseSwaps P s then s.curSlot else s.curSlot.other := by
    split <;> simp
  have hend : periodEnd P s = wrap (periodCount P s) := by
    obtain ⟨h, -⟩ | ⟨-, h⟩ := unlockOrWrap_cases P (periodCount P s)
    · cases hunlock.symm.trans h
    · exact h
  rw [hend, periodCount_eq hmis, wrap, ← hcur]

/-- The unlock, as the whole change of a period end (R266). -/
theorem periodEnd_of_unlock {P : Params} {s : State} (hunlock : unlockDue P (periodCount P s) = true) :
    periodEnd P s =
      { s with
        buf := 0, pat := 0, locked := false, curSlot := .zero, slotTimer := 0, misMatch := 0, noSync := 0,
        syncP := false, slot0 := SlotRec.reset, slot1 := SlotRec.reset } := by
  have hend : periodEnd P s = unlock (periodCount P s) := by
    obtain ⟨-, h⟩ | ⟨h, -⟩ := unlockOrWrap_cases P (periodCount P s)
    · exact h
    · cases h.symm.trans hunlock
  rw [hend, periodCount, phaseCheck_eq]
  obtain ⟨-, h⟩ | ⟨-, h⟩ := phaseCorrect_cases
    { s with misMatch := if tactSlot P s.buf (backFrom s.ptr 287) = s.curSlot then 0 else s.misMatch + 1 } <;>
    rw [h] <;> rfl

/-- Unlock is due at 60 periods without a match, counting this one, with both slots IDLE (R265, R266). -/
theorem unlockDue_periodCount_iff (s : State) :
    unlockDue params (periodCount params s) = true ↔
      60 ≤ (if s.syncP then 0 else min (s.noSync.toNat + 1) 127) ∧ s.slot0.st = .idle ∧ s.slot1.st = .idle := by
  rw [unlockDue_iff, periodCount, phaseCheck_eq, ← countNoSync_toNat]
  obtain ⟨-, h⟩ | ⟨-, h⟩ := phaseCorrect_cases
    { s with misMatch := if tactSlot params s.buf (backFrom s.ptr 287) = s.curSlot then 0 else s.misMatch + 1 } <;> rw [h]
  · exact Iff.rfl
  · exact and_congr_right fun _ => and_comm

end Sys2Proof.Machine
end

section
/-! The flywheel: the statements about step 4. -/

open Sys2Proof Sys2Proof.Machine

/-- Settles O57: step 4 is off in duplex mode and while unlocked, and counts before the last bit. -/
theorem flywheelWithinAPeriod : Obligations.FlywheelWithinAPeriod := by
  intro s
  refine ⟨flywheel_of_off params, fun hmode hlocked htimer => ?_⟩
  have hne : s.slotTimer ≠ 287 := fun h => by rw [slotTimer_eq_iff] at h; omega
  rw [flywheel_of_within params hmode hlocked hne, slotTimer_add_one]

/-- Settles O58: below 60 periods, or with a call, the period end wraps. -/
theorem flywheelPeriodEndWraps : Obligations.FlywheelPeriodEndWraps := by
  intro s disagree swap noSync hmode hlocked htimer hmis hdisagree hswap hnoSync hstay
  have hdis : phaseDisagrees params s = disagree := hdisagree.symm
  have hsw : phaseSwaps params s = swap := by rw [hswap, ← hdis]; rfl
  have hwrap : unlockDue params (periodCount params s) = false := by
    rw [← Bool.not_eq_true, unlockDue_periodCount_iff, ← hnoSync]
    rintro ⟨hcount, hidle0, hidle1⟩
    rcases hstay with h | h | h
    · omega
    · exact h hidle0
    · exact h hidle1
  have hcount : (countNoSync s).noSync = BitVec.ofNat 7 noSync := by
    rw [hnoSync, ← countNoSync_toNat]; simp
  rw [flywheel_of_periodEnd params hmode hlocked (slotTimer_eq_iff.mpr htimer), periodEnd_of_wrap hmis hwrap, hdis, hsw,
    hcount]

/-- Settles O59: the 60th silent period of two IDLE slots makes unlock due, whatever the phase check does. -/
theorem flywheelUnlocksAfterSilence : Obligations.FlywheelUnlocksAfterSilence := by
  intro s hmode hlocked htimer hsync hcount hidle0 hidle1
  have hunlock : unlockDue params (periodCount params s) = true := by
    rw [unlockDue_periodCount_iff, hsync, if_neg Bool.false_ne_true]
    exact ⟨by omega, hidle0, hidle1⟩
  rw [flywheel_of_periodEnd params hmode hlocked (slotTimer_eq_iff.mpr htimer), periodEnd_of_unlock hunlock]

end

section
/-! SUPPORT. One accepted BIT without a match: its steps, and the state it answers (43_slot_receiver.md R211–R214, R219, R227,
R230, R270). -/

namespace Sys2Proof.Machine

open Sys2Proof.Config (Params SyncMatch)

/-- With nothing to discard BIT runs steps 1 to 5 and responds (R211). -/
theorem exec_bitCommand_of_accepted {b : Bool} {s : State} (hdelay : s.delayCnt = 0) :
    exec (bitCommand b) s = .next (respondActive (acceptBit params b s)) := by
  rw [exec_bitCommand_eq, receiveBit, if_pos hdelay]

/-- A step-1 state is one whose `BUF` and `PAT` step 1 wrote (R213, R214). -/
theorem stored_of_eq_storeBit {b : Bool} {s t : State} (hbuf : t.buf = (storeBit b s).buf)
    (hpat : t.pat = (storeBit b s).pat) : Stored b s t := by
  constructor
  · intro i hi
    rw [hbuf, storeBit_buf, getLsbD_writeBit]
    simp [hi]
  · rw [hpat, storeBit_pat]
    cases b <;> rfl

/-- Steps 3 to 5 and the response, on the state `u` step 2 leaves. -/
def finishBit (P : Params) (u : State) : State :=
  respondActive (advancePtr (flywheel P (completeIfDue P .one (completeIfDue P .zero u))))

theorem respondActive_acceptBit (P : Params) (b : Bool) (s : State) :
    respondActive (acceptBit P b s) = finishBit P (syncStep P (storeBit b s)) := rfl

/-- The cursor's advance and the response, written out (R219, R270). -/
theorem respondActive_advancePtr (u : State) :
    respondActive (advancePtr u) =
      { u with
        ptr := BitVec.ofNat 10 ((u.ptr.toNat + 1) % 576)
        responses := u.responses ++
          [okResponse [if u.slot0.st ≠ .idle ∨ u.slot1.st ≠ .idle then 0x01 else 0x00]] } := by
  rw [respondActive, flagByte_active]
  rfl

/-- Slot 0's completion leaves slot 1's period end to be seen (R230). -/
theorem slot1_due_after_slot0 (P : Params) (u : State) :
    ((completeIfDue P .zero u).slot1.endPos = some (completeIfDue P .zero u).ptr) ↔ u.slot1.endPos = some u.ptr := by
  obtain ⟨-, -, -, hptr, -, -, -, -, -, -, -, -, -, -, hother, -⟩ := completeIfDue_frame P .zero u
  have hslot1 : (completeIfDue P .zero u).slot1 = u.slot1 := hother
  rw [hptr, hslot1]

/-- Step 3 with the slots' period ends tested on the state before it (R227, R230). -/
theorem completions_eq (P : Params) (u : State) :
    completeIfDue P .one (completeIfDue P .zero u) =
      (let u0 := if u.slot0.endPos = some u.ptr then complete P .zero u else u
       if u.slot1.endPos = some u.ptr then complete P .one u0 else u0) :=
  if_congr (slot1_due_after_slot0 P u) rfl rfl

/-- Where slot `k` is not due, step 3 is the other slot's (R230). -/
theorem completions_of_other (P : Params) {k : SlotId} {u : State} (h : (u.slot k).endPos ≠ some u.ptr) :
    completeIfDue P .one (completeIfDue P .zero u) = completeIfDue P k.other u := by
  cases k with
  | zero => rw [completeIfDue_of_ne P h]; rfl
  | one => exact completeIfDue_of_ne P (k := .one) (mt (slot1_due_after_slot0 P u).mp h)

/-- Without a period end step 3 does nothing (R230). -/
theorem completions_of_none (P : Params) {u : State} (h0 : u.slot0.endPos ≠ some u.ptr)
    (h1 : u.slot1.endPos ≠ some u.ptr) : completeIfDue P .one (completeIfDue P .zero u) = u := by
  rw [completeIfDue_of_ne P (k := .zero) h0, completeIfDue_of_ne P (k := .one) h1]

end Sys2Proof.Machine
end

section
/-! One accepted BIT without a match: the statements about its steps. -/

open Sys2Proof Sys2Proof.Machine

/-- Settles O47: step 2 does nothing, step 3 by the period ends found before it, then step 4, the cursor, the response. -/
theorem bitWithoutSyncCompletesDueSlots : Obligations.BitWithoutSyncCompletesDueSlots := by
  intro s b hdelay hnone s0 s1
  have hs1 : completeIfDue params .one (completeIfDue params .zero (storeBit b s)) = s1 := completions_eq params (storeBit b s)
  obtain ⟨-, -, -, hptr, -, -, -, -, -, -, -, -, hresp, -⟩ := completions_frame params (storeBit b s)
  obtain ⟨-, -, -, fptr, -, -, -, fresp, -⟩ := flywheel_frame params s1
  rw [hs1] at hptr hresp
  refine ⟨finishBit params (storeBit b s), ?_, ?_⟩
  · rw [exec_bitCommand_of_accepted hdelay, respondActive_acceptBit, syncStep_of_none hnone]
  · rw [finishBit, hs1, respondActive_advancePtr, fptr, fresp, hptr, hresp]
    rfl

/-- Settles O39: steps 2 and 3 do nothing, and step 4 at most counts. -/
theorem quietBitOnlyStoresTheBit : Obligations.QuietBitOnlyStoresTheBit := by
  intro s b hdelay hnone hdue0 hdue1 hfly
  have hthree := completions_of_none params (u := storeBit b s) hdue0 hdue1
  obtain ⟨timer, hfour, htimer⟩ := flywheel_before_periodEnd params (s := storeBit b s) hfly
  refine ⟨finishBit params (storeBit b s), ?_, ?_⟩
  · rw [exec_bitCommand_of_accepted hdelay, respondActive_acceptBit, syncStep_of_none hnone]
  · rw [finishBit, hthree, hfour, respondActive_advancePtr]
    exact ⟨stored_of_eq_storeBit rfl rfl, position_toNat (s.ptr.toNat + 1), htimer, rfl⟩

/-- Settles O60: the flywheel on the state step 3 leaves, within a period and at its end. -/
theorem lockedReceiverAlternatesSlots : Obligations.LockedReceiverAlternatesSlots := by
  intro s t b hdelay hmode hlocked htimer hmis hnone hexec hstays secondDisagreement
  rw [exec_bitCommand_of_accepted hdelay, respondActive_acceptBit, syncStep_of_none hnone] at hexec
  obtain rfl := Host.Outcome.next.inj hexec
  obtain ⟨-, -, umode, uptr, -, ulocked, ucur, utimer, umis, -, -, -, -, -, -, ubits⟩ :=
    completions_frame params (storeBit b s)
  rw [finishBit] at hstays ⊢
  generalize completeIfDue params .one (completeIfDue params .zero (storeBit b s)) = u at *
  have hbuf : u.buf = (storeBit b s).buf := by
    obtain ⟨h, -⟩ | ⟨hduplex, -⟩ := ubits
    · exact h
    · cases hmode.symm.trans hduplex
  have umode' : u.cfgMode = .single := umode.trans hmode
  have ulocked' : u.locked = true := ulocked.trans hlocked
  by_cases hlast : s.slotTimer.toNat = 287
  · have hend := flywheel_of_periodEnd params umode' ulocked' (utimer.trans (slotTimer_eq_iff.mpr hlast))
    have hwrap : unlockDue params (periodCount params u) = false := by
      rw [← Bool.not_eq_true]
      intro hunlock
      rw [hend, periodEnd_of_unlock hunlock] at hstays
      cases hstays
    have hswap : phaseSwaps params u = true ↔ secondDisagreement := by
      rw [phaseSwaps_iff, umis, hbuf, uptr, ucur]
      rfl
    rw [hend, periodEnd_of_wrap (umis ▸ hmis) hwrap]
    refine ⟨?_, fun h => absurd hlast (by omega), fun _ hno => ?_, fun _ hyes => ?_⟩
    · rw [hlast]; rfl
    · exact (if_neg (mt hswap.mp hno)).trans (congrArg SlotId.other ucur)
    · exact (if_pos (hswap.mpr hyes)).trans ucur
  · have hbelow : u.slotTimer ≠ 287 := fun h => hlast (slotTimer_eq_iff.mp (utimer.symm.trans h))
    rw [flywheel_of_within params umode' ulocked' hbelow]
    refine ⟨?_, fun _ => ucur, fun h => absurd h hlast, fun h => absurd h hlast⟩
    have htimer' : (u.slotTimer + 1).toNat = (s.slotTimer.toNat + 1) % 288 := by
      rw [utimer, storeBit_slotTimer]
      bv_omega
    exact htimer'

end

section
/-! SUPPORT. What a completion appends, and when the buffer is cleared (43_slot_receiver.md R227, R243, R244, R266). -/

namespace Sys2Proof.Machine

open Sys2Proof.Config (Params SyncMatch)

/-- The events of one completion of slot `k` before its loss check: at most a `BURST`, then at most an `LC` (R227). -/
def FrameEvents (k : SlotId) (es : List Event) : Prop :=
  es = [] ∨ ∃ type payload lcs, es = .burst k type payload :: lcs ∧
    (lcs = [] ∨ ∃ kind how record, lcs = [Event.lc k kind how record])

theorem FrameEvents.completionEvents {k : SlotId} {es : List Event} (h : FrameEvents k es) :
    CompletionEvents k es ∧ CompletionEvents k (es ++ [.lost k]) := by
  obtain rfl | ⟨type, payload, lcs, rfl, hlcs⟩ := h
  · exact ⟨⟨[], [], [], rfl, .inl rfl, .inl rfl, .inl rfl⟩, ⟨[], [], [.lost k], rfl, .inl rfl, .inl rfl, .inr rfl⟩⟩
  · have hlcs' : lcs = [] ∨ [Event.burst k type payload] ≠ [] ∧ ∃ kind how record, lcs = [Event.lc k kind how record] :=
      hlcs.imp_right fun hlc => ⟨List.cons_ne_nil _ _, hlc⟩
    exact ⟨⟨[_], lcs, [], by simp, .inr ⟨type, payload, rfl⟩, hlcs', .inl rfl⟩,
      ⟨[_], lcs, [.lost k], by simp, .inr ⟨type, payload, rfl⟩, hlcs', .inr rfl⟩⟩

theorem lcEvents_frameEvents (P : Params) (k : SlotId) (burst : Burst) (dt : BitVec 4) :
    lcEvents P k burst dt = [] ∨ ∃ kind how record, lcEvents P k burst dt = [Event.lc k kind how record] := by
  unfold lcEvents
  cases lcKindOf dt with
  | none => exact .inl rfl
  | some kind =>
    cases hlc : lcx P burst kind with
    | none => exact .inl (by simp [hlc])
    | some x => exact .inr ⟨kind, x.1, x.2, by simp [hlc]⟩

/-- Before its loss check every completion appends frame events and rewrites its record (R232–R241). -/
theorem exists_completionFrame_eq (P : Params) (k : SlotId) (s : State) :
    ∃ es r, completionFrame P k s = s.withCompletion k es r ∧ FrameEvents k es := by
  obtain hseen | ⟨hseen, hkind⟩ | ⟨hseen, hkind, hmode, hcc⟩ | ⟨hseen, hkind, haccepted⟩ := completion_kinds P k s
  · refine ⟨_, _, completionFrame_of_missed hseen, ?_⟩
    unfold predictedEvents
    split
    · exact .inr ⟨_, _, [], rfl, .inl rfl⟩
    · exact .inl rfl
  · exact ⟨_, _, completionFrame_of_voice hseen hkind, .inr ⟨_, _, [], rfl, .inl rfl⟩⟩
  · exact ⟨_, _, completionFrame_of_discarded hseen hkind hmode hcc, .inl rfl⟩
  · exact ⟨_, _, completionFrame_of_accepted hseen hkind haccepted,
      .inr ⟨_, _, _, rfl, lcEvents_frameEvents P k _ _⟩⟩

/-- A completion keeps the call's record, or loses it with a `LOST` (R243). -/
theorem complete_cases (P : Params) (k : SlotId) (s : State) :
    ∃ es, FrameEvents k es ∧
      ((∃ r, complete P k s = s.withCompletion k es r) ∨
        complete P k s = (s.withCompletion k (es ++ [.lost k]) SlotRec.reset).clearIfDuplex) := by
  obtain ⟨es, r, hframe, hes⟩ := exists_completionFrame_eq P k s
  refine ⟨es, hes, ?_⟩
  by_cases hlost : r.st ≠ .idle ∧ lossN P s.cfgMode ≤ r.miss.toNat
  · exact .inr (complete_of_lost hframe hlost.1 hlost.2)
  · refine .inl ⟨_, complete_of_kept hframe ?_⟩
    by_cases hst : r.st = .idle
    · exact .inl hst
    · exact .inr (Nat.lt_of_not_le fun hmiss => hlost ⟨hst, hmiss⟩)

@[simp] theorem State.clearIfDuplex_events (s : State) : s.clearIfDuplex.events = s.events := by
  unfold State.clearIfDuplex
  split <;> rfl

/-- Step 3 for one slot appends the events of one completion, or none (R227). -/
theorem completeIfDue_events (P : Params) (k : SlotId) (s : State) :
    ∃ es, (completeIfDue P k s).events = s.events ++ es ∧ CompletionEvents k es := by
  by_cases hdue : (s.slot k).endPos = some s.ptr
  · rw [completeIfDue_of_eq P hdue]
    obtain ⟨es, hes, ⟨r, h⟩ | h⟩ := complete_cases P k s
    · exact ⟨es, by rw [h, State.withCompletion_events], hes.completionEvents.1⟩
    · exact ⟨es ++ [.lost k], by rw [h, State.clearIfDuplex_events, State.withCompletion_events],
        hes.completionEvents.2⟩
  · exact ⟨[], by rw [completeIfDue_of_ne P hdue, List.append_nil], ⟨[], [], [], rfl, .inl rfl, .inl rfl, .inl rfl⟩⟩

/-- Step 3 for one slot keeps `BUF` and `PAT`, or clears both in a duplex loss, which appends its `LOST` (R244). -/
theorem completeIfDue_bits (P : Params) (k : SlotId) (s : State) :
    ((completeIfDue P k s).buf = s.buf ∧ (completeIfDue P k s).pat = s.pat) ∨
      ((completeIfDue P k s).buf = 0 ∧ (completeIfDue P k s).pat = 0 ∧ s.cfgMode = .duplex ∧
        ∃ es, (completeIfDue P k s).events = s.events ++ es ∧ .lost k ∈ es) := by
  by_cases hdue : (s.slot k).endPos = some s.ptr
  · rw [completeIfDue_of_eq P hdue]
    obtain ⟨es, -, ⟨r, h⟩ | h⟩ := complete_cases P k s
    · exact .inl ⟨by rw [h]; cases k <;> rfl, by rw [h]; cases k <;> rfl⟩
    · obtain hmode | hmode := s.cfgMode.duplex_or_single
      · rw [State.clearIfDuplex_of_duplex (by simpa using hmode)] at h
        exact .inr ⟨by rw [h]; rfl, by rw [h]; rfl, hmode, es ++ [.lost k],
          by rw [h, State.clearBits_events, State.withCompletion_events], by simp⟩
      · rw [State.clearIfDuplex_of_single (by simpa using hmode)] at h
        exact .inl ⟨by rw [h]; cases k <;> rfl, by rw [h]; cases k <;> rfl⟩
  · rw [completeIfDue_of_ne P hdue]
    exact .inl ⟨rfl, rfl⟩

/-- Step 3 keeps `BUF` and `PAT`, or clears both in a duplex loss of either slot (R244). -/
theorem completions_bits (P : Params) (s : State) :
    let t := completeIfDue P .one (completeIfDue P .zero s)
    (t.buf = s.buf ∧ t.pat = s.pat) ∨
      (t.buf = 0 ∧ t.pat = 0 ∧ s.cfgMode = .duplex ∧ ∃ es k, t.events = s.events ++ es ∧ .lost k ∈ es) := by
  intro t
  obtain ⟨-, -, hmode, -⟩ := completeIfDue_frame P .zero s
  obtain ⟨es1, hes1, -⟩ := completeIfDue_events P .one (completeIfDue P .zero s)
  obtain ⟨hbuf0, hpat0⟩ | ⟨hbuf0, hpat0, hduplex, es0, hes0, hlost⟩ := completeIfDue_bits P .zero s
  · obtain ⟨hbuf1, hpat1⟩ | ⟨hbuf1, hpat1, hduplex, es, hes, hlost⟩ :=
      completeIfDue_bits P .one (completeIfDue P .zero s)
    · exact .inl ⟨hbuf1.trans hbuf0, hpat1.trans hpat0⟩
    · obtain ⟨es0, hes0, -⟩ := completeIfDue_events P .zero s
      exact .inr ⟨hbuf1, hpat1, hmode ▸ hduplex, es0 ++ es, .one, by rw [hes, hes0, List.append_assoc],
        List.mem_append_right es0 hlost⟩
  · have hcleared : t.buf = 0 ∧ t.pat = 0 := by
      obtain ⟨hbuf1, hpat1⟩ | ⟨hbuf1, hpat1, -⟩ := completeIfDue_bits P .one (completeIfDue P .zero s)
      · exact ⟨hbuf1.trans hbuf0, hpat1.trans hpat0⟩
      · exact ⟨hbuf1, hpat1⟩
    exact .inr ⟨hcleared.1, hcleared.2, hduplex, es0 ++ es1, .zero, by rw [hes1, hes0, List.append_assoc],
      List.mem_append_left es1 hlost⟩

/-- The flywheel keeps `BUF` and `PAT`, or clears both in an unlock at a period end (R266). -/
theorem flywheel_bits (P : Params) (s : State) :
    ((flywheel P s).buf = s.buf ∧ (flywheel P s).pat = s.pat) ∨
      ((flywheel P s).buf = 0 ∧ (flywheel P s).pat = 0 ∧ s.cfgMode = .single ∧ s.locked = true ∧
        s.slotTimer = 287 ∧ (flywheel P s).locked = false) := by
  obtain ⟨-, h⟩ | ⟨-, -, -, h⟩ | ⟨hmode, hlocked, htimer, h⟩ := flywheel_cases P s <;> rw [h]
  · exact .inl ⟨rfl, rfl⟩
  · exact .inl ⟨rfl, rfl⟩
  · obtain ⟨-, hu⟩ | ⟨-, hu⟩ := unlockOrWrap_cases P (periodCount P s)
    · have hend : periodEnd P s = unlock (periodCount P s) := hu
      rw [hend]
      exact .inr ⟨rfl, rfl, hmode, hlocked, htimer, rfl⟩
    · have hend : periodEnd P s = wrap (periodCount P s) := hu
      have hbits : (periodCount P s).buf = s.buf ∧ (periodCount P s).pat = s.pat := by
        rw [periodCount, phaseCheck_eq, countNoSync_buf, countNoSync_pat]
        obtain ⟨-, hc⟩ | ⟨-, hc⟩ := phaseCorrect_cases
          { s with misMatch := if tactSlot P s.buf (backFrom s.ptr 287) = s.curSlot then 0 else s.misMatch + 1 } <;>
          rw [hc] <;> exact ⟨rfl, rfl⟩
      rw [hend]
      exact .inl hbits

/-- A receiver that is locked after step 2 was locked before it, or its timer has just been set (R260, R261). -/
theorem locked_of_syncStep_locked {P : Params} {s : State} (h : (syncStep P s).locked = true) :
    s.locked = true ∨ (syncStep P s).slotTimer = 179 := by
  obtain ⟨-, hs⟩ | ⟨m, -, hs⟩ := syncStep_cases P s <;> rw [hs] at h ⊢
  · exact .inl h
  · rw [accept, transmitReport_eq] at h ⊢
    simp only [matchWrites_locked, matchWrites_slotTimer] at h ⊢
    obtain ⟨-, hl⟩ | ⟨-, -, hl⟩ | ⟨-, hlocked, -⟩ := lockOrRealign_cases P s
    · rw [hl] at h; exact .inl h
    · rw [hl]; exact .inr rfl
    · exact .inl hlocked

end Sys2Proof.Machine
end

section
/-! The events and the buffer of one BIT: the statements about what it appends and clears. -/

open Sys2Proof Sys2Proof.Machine

/-- Settles O56: step 3 completes slot 0 and then slot 1, and no other step appends an event. -/
theorem eventsOfOneBitAreOrdered : Obligations.EventsOfOneBitAreOrdered := by
  intro s t b hexec
  rw [exec_bitCommand_eq] at hexec
  obtain rfl := Host.Outcome.next.inj hexec
  obtain ⟨-, h⟩ | ⟨-, h⟩ := receiveBit_cases params b s <;> rw [h]
  · have hnone (k : SlotId) : CompletionEvents k [] := ⟨[], [], [], rfl, .inl rfl, .inl rfl, .inl rfl⟩
    exact ⟨[], [], by simp [respondActive], hnone .zero, hnone .one⟩
  · obtain ⟨-, -, -, -, -, -, -, hsync, -⟩ := syncStep_frame params (storeBit b s)
    obtain ⟨es0, hes0, h0⟩ := completeIfDue_events params .zero (syncStep params (storeBit b s))
    obtain ⟨es1, hes1, h1⟩ := completeIfDue_events params .one (completeIfDue params .zero (syncStep params (storeBit b s)))
    obtain ⟨-, -, -, -, -, -, hfly, -⟩ := flywheel_frame params
      (completeIfDue params .one (completeIfDue params .zero (syncStep params (storeBit b s))))
    refine ⟨es0, es1, ?_, h0, h1⟩
    calc (respondActive (acceptBit params b s)).events
      _ = (completeIfDue params .one (completeIfDue params .zero (syncStep params (storeBit b s)))).events := hfly
      _ = s.events ++ es0 ++ es1 := by rw [hes1, hes0, hsync, storeBit_events]

/-- Settles O38: step 1 writes, step 2 does not; step 3 clears in a duplex loss, step 4 in an unlock. -/
theorem acceptedBitWritesOneBufferBit : Obligations.AcceptedBitWritesOneBufferBit := by
  intro s t b hdelay hexec
  rw [exec_bitCommand_of_accepted hdelay, respondActive_acceptBit] at hexec
  obtain rfl := Host.Outcome.next.inj hexec
  have hlock := locked_of_syncStep_locked (P := params) (s := storeBit b s)
  obtain ⟨-, -, smode, sbuf, -, spat, -, sevents, -⟩ := syncStep_frame params (storeBit b s)
  have hthree := completions_bits params (syncStep params (storeBit b s))
  obtain ⟨-, -, cmode, -, -, clocked, -, ctimer, -⟩ := completions_frame params (syncStep params (storeBit b s))
  rw [finishBit]
  generalize completeIfDue params .one (completeIfDue params .zero (syncStep params (storeBit b s))) = u at *
  obtain ⟨-, -, -, -, -, -, fevents, -⟩ := flywheel_frame params u
  obtain ⟨fbuf, fpat⟩ | ⟨fbuf, fpat, hmode, hlocked, htimer, hunlocked⟩ := flywheel_bits params u
  · obtain ⟨hbuf, hpat⟩ | ⟨hbuf, hpat, hmode, es, k, hes, hlost⟩ := hthree
    · exact .inl (stored_of_eq_storeBit (fbuf.trans (hbuf.trans sbuf)) (fpat.trans (hpat.trans spat)))
    · exact .inr ⟨fbuf.trans hbuf, fpat.trans hpat,
        .inl ⟨smode.symm.trans hmode, es, k, (fevents.trans hes).trans (by rw [sevents]; rfl), hlost⟩⟩
  · have hlocked' : s.locked = true := by
      obtain h | h := hlock (clocked.symm.trans hlocked)
      · exact h
      · rw [← ctimer, htimer] at h
        exact absurd h (by decide)
    exact .inr ⟨fbuf, fpat, .inr ⟨smode.symm.trans (cmode.symm.trans hmode), hlocked', hunlocked⟩⟩

end

section
/-! SUPPORT. One accepted BIT that finds a match: the slot it belongs to and the state step 2 leaves
(43_slot_receiver.md R216, R217, R223–R226, R260, R261). -/

namespace Sys2Proof.Machine

open Sys2Proof.Config (Params SyncMatch Role)

/-! ### Attribution -/

/-- The circular distance is at most 2 when one of the two differences modulo 576 is (R11, R216). -/
theorem cdist_le_two_iff (p e : BitVec 10) :
    cdist p e ≤ 2 ↔ ((p.toNat : Int) - e.toNat) % 576 ≤ 2 ∨ ((e.toNat : Int) - p.toNat) % 576 ≤ 2 := by
  have hp := p.isLt
  have he := e.isLt
  rw [cdist]
  omega

/-- The window of R216, written out. -/
theorem inWindow_iff_InWindow (s : State) (k : SlotId) : inWindow params s k = true ↔ InWindow s.ptr (s.slot k) := by
  rw [inWindow_iff]
  refine and_congr_right fun _ => exists_congr fun e => ?_
  rw [← cdist_le_two_iff, Option.mem_def]
  rfl

/-- The lowest-numbered slot in window, else a default (R217). -/
theorem windowSlot_getD {s : State} {k default : SlotId}
    (h : InWindow s.ptr s.slot0 ∧ k = .zero ∨ ¬ InWindow s.ptr s.slot0 ∧ InWindow s.ptr s.slot1 ∧ k = .one ∨
      ¬ InWindow s.ptr s.slot0 ∧ ¬ InWindow s.ptr s.slot1 ∧ k = default) :
    (windowSlot params s).getD default = k := by
  have h0 := inWindow_iff_InWindow s .zero
  have h1 := inWindow_iff_InWindow s .one
  rw [State.slot_zero] at h0
  rw [State.slot_one] at h1
  rw [← h0, ← h1] at h
  unfold windowSlot
  obtain ⟨hin0, rfl⟩ | ⟨hout0, hin1, rfl⟩ | ⟨hout0, hout1, rfl⟩ := h
  · rw [if_pos hin0]; rfl
  · rw [if_neg hout0, if_pos hin1]; rfl
  · rw [if_neg hout0, if_neg hout1]; rfl

theorem attributedSlot_of_duplex (P : Params) {s : State} (hmode : s.cfgMode = .duplex) :
    attributedSlot P s = (windowSlot P s).getD (halfSlot s.ptr) := by
  simp [attributedSlot, hmode]

theorem attributedSlot_of_locked (P : Params) {s : State} (hmode : s.cfgMode = .single) (hlocked : s.locked = true) :
    attributedSlot P s = (windowSlot P s).getD s.curSlot := by
  simp [attributedSlot, hmode, hlocked]

theorem attributedSlot_of_unlocked (P : Params) {s : State} (hmode : s.cfgMode = .single) (hlocked : s.locked = false) :
    attributedSlot P s = tactSlot P s.buf (backFrom s.ptr 179) := by
  simp [attributedSlot, hmode, hlocked]

/-! ### The state an accepted match leaves -/

/-- The record a match writes, in the form of R225 written out. -/
theorem matchWrites_eq_framedAt (k : SlotId) (m : SyncMatch) (s : State) :
    matchWrites k m s = ({ s with syncP := true } : State).setSlot k ((s.slot k).framedAt s.ptr m) := by
  cases k <;> rfl

/-- A match in duplex mode frames its slot and reports a base station's sync (R225, R226). -/
theorem accept_of_duplex {P : Params} {m : SyncMatch} {s : State} (hmode : s.cfgMode = .duplex) :
    accept P m s =
      ({ s with syncP := true, bsSync := s.bsSync || decide (m.role = .bs) } : State).setSlot (attributedSlot P s)
        ((s.slot (attributedSlot P s)).framedAt s.ptr m) := by
  have hlock : lockOrRealign P s = s := by simp [lockOrRealign, hmode]
  rw [accept, hlock, transmitReport_eq, matchWrites_cfgMode, hmode, matchWrites_eq_framedAt]
  cases attributedSlot P s <;> simp [State.setSlot]

/-- In single-radio mode no transmit sync is reported (R226). -/
theorem transmitReport_of_single {m : SyncMatch} {s : State} (hmode : s.cfgMode = .single) : transmitReport m s = s := by
  simp [transmitReport, hmode]

/-- The first match in single-radio mode locks (R260, R225). -/
theorem accept_of_unlocked {P : Params} {m : SyncMatch} {s : State} (hmode : s.cfgMode = .single)
    (hlocked : s.locked = false) :
    accept P m s =
      ({ s with
        locked := true, curSlot := attributedSlot P s, slotTimer := 179, misMatch := 0, noSync := 0,
        syncP := true } : State).setSlot (attributedSlot P s) ((s.slot (attributedSlot P s)).framedAt s.ptr m) := by
  have hlock : lockOrRealign P s = lock P s := by simp [lockOrRealign, hmode, hlocked]
  rw [accept, hlock, transmitReport_of_single (by simpa using hmode), matchWrites_eq_framedAt, lock_slot, lock_ptr, lock,
    attributedSlot_of_unlocked P hmode hlocked]

/-- A match of a locked receiver re-aligns it (R261, R225). -/
theorem accept_of_locked {P : Params} {m : SyncMatch} {s : State} (hmode : s.cfgMode = .single)
    (hlocked : s.locked = true) :
    accept P m s =
      ({ s with curSlot := attributedSlot P s, slotTimer := 179, syncP := true } : State).setSlot (attributedSlot P s)
        ((s.slot (attributedSlot P s)).framedAt s.ptr m) := by
  have halign : lockOrRealign P s = realign (attributedSlot P s) s := by simp [lockOrRealign, hmode, hlocked]
  rw [accept, halign, transmitReport_of_single (by simpa using hmode), matchWrites_eq_framedAt, realign_slot, realign_ptr,
    realign]

/-! ### Steps 3 to 5 after a match -/

/-- The period end a match writes lies 108 positions ahead, so the slot it frames is not due at the same bit (R225). -/
theorem framedAt_endPos_ne {r : SlotRec} {p : BitVec 10} {m : SyncMatch} (_hp : p.toNat < 576) :
    (r.framedAt p m).endPos ≠ some p := by
  intro h
  have hpos : (position (p.toNat + 108)).toNat = p.toNat := congrArg BitVec.toNat (Option.some.inj h)
  rw [position_toNat] at hpos
  omega

/-- After a match step 3 completes the other slot, if it is due (R227, R230). -/
theorem completions_of_framed {P : Params} {u : State} {k : SlotId} {r : SlotRec} {m : SyncMatch}
    (hp : u.ptr.toNat < 576) :
    completeIfDue P .one (completeIfDue P .zero (u.setSlot k (r.framedAt u.ptr m))) =
      if (u.slot k.other).endPos = some u.ptr then complete P k.other (u.setSlot k (r.framedAt u.ptr m))
      else u.setSlot k (r.framedAt u.ptr m) := by
  rw [completions_of_other P (k := k) (by simpa using framedAt_endPos_ne hp), completeIfDue]
  simp

/-- Steps 3 to 5 and the response after a match that leaves the other slot alone. -/
theorem finishBit_of_framed {P : Params} {u : State} {k : SlotId} {r : SlotRec} {m : SyncMatch}
    (hp : u.ptr.toNat < 576) (hdue : (u.slot k.other).endPos ≠ some u.ptr) :
    finishBit P (u.setSlot k (r.framedAt u.ptr m)) =
      respondActive (advancePtr (flywheel P (u.setSlot k (r.framedAt u.ptr m)))) := by
  rw [finishBit, completions_of_framed hp, if_neg hdue]

/-- Steps 3 to 5 and the response after a match at the other slot's period end. -/
theorem finishBit_of_framed_due {P : Params} {u : State} {k : SlotId} {r : SlotRec} {m : SyncMatch}
    (hp : u.ptr.toNat < 576) (hdue : (u.slot k.other).endPos = some u.ptr) :
    finishBit P (u.setSlot k (r.framedAt u.ptr m)) =
      respondActive (advancePtr (flywheel P (complete P k.other (u.setSlot k (r.framedAt u.ptr m))))) := by
  rw [finishBit, completions_of_framed hp, if_pos hdue]

/-- What a completion keeps (R244). -/
theorem complete_frame (P : Params) (k : SlotId) (s : State) :
    let t := complete P k s
    t.cfgMode = s.cfgMode ∧ t.ptr = s.ptr ∧ t.locked = s.locked ∧ t.slotTimer = s.slotTimer ∧
      t.misMatch = s.misMatch ∧ t.noSync = s.noSync ∧ t.bsSync = s.bsSync ∧ t.responses = s.responses := by
  obtain ⟨t, hreach, h⟩ := complete_reach P k s
  obtain ⟨-, -, hmode, -, hptr, -, -, hlocked, -, htimer, hmis, hnoSync, -, hbs, hresp, -⟩ := hreach.frame
  obtain h | ⟨-, h⟩ := h <;> rw [h] <;> exact ⟨hmode, hptr, hlocked, htimer, hmis, hnoSync, hbs, hresp⟩

/-- The bit of a match restarts the flywheel's count: step 4 makes the timer 180 (R260–R262). -/
theorem flywheel_after_match (P : Params) {u : State} (hmode : u.cfgMode = .single) (hlocked : u.locked = true)
    (htimer : u.slotTimer = 179) : flywheel P u = { u with slotTimer := 180 } := by
  rw [flywheel_of_within P hmode hlocked (by rw [htimer]; decide), htimer]
  rfl

/-- Steps 3 to 5 in duplex mode after a match at the other slot's period end (R227, R230). -/
theorem finishBit_of_duplex_due {u : State} {k : SlotId} {r : SlotRec} {m : SyncMatch} (hmode : u.cfgMode = .duplex)
    (hp : u.ptr.toNat < 576) (hdue : (u.slot k.other).endPos = some u.ptr) :
    ∃ t, finishBit params (u.setSlot k (r.framedAt u.ptr m)) = t ∧
      t = { complete params k.other (u.setSlot k (r.framedAt u.ptr m)) with
            ptr := BitVec.ofNat 10 ((u.ptr.toNat + 1) % 576)
            responses := u.responses ++
              [okResponse [if t.slot0.st ≠ .idle ∨ t.slot1.st ≠ .idle then 0x01 else 0x00]] } := by
  refine ⟨_, finishBit_of_framed_due hp hdue, ?_⟩
  obtain ⟨cmode, cptr, -, -, -, -, -, cresp⟩ := complete_frame params k.other (u.setSlot k (r.framedAt u.ptr m))
  rw [State.setSlot_cfgMode, hmode] at cmode
  rw [flywheel_of_off params (.inl cmode), respondActive_advancePtr, cptr, cresp, State.setSlot_ptr,
    State.setSlot_responses]

/-- Steps 3 to 5 in single-radio mode after a match at the other slot's period end (R227, R230, R262). -/
theorem finishBit_of_single_due {u : State} {k : SlotId} {r : SlotRec} {m : SyncMatch} (hmode : u.cfgMode = .single)
    (hlocked : u.locked = true) (htimer : u.slotTimer = 179) (hp : u.ptr.toNat < 576)
    (hdue : (u.slot k.other).endPos = some u.ptr) :
    ∃ t, finishBit params (u.setSlot k (r.framedAt u.ptr m)) = t ∧
      t.locked = true ∧ t.misMatch = u.misMatch ∧ t.noSync = u.noSync ∧ t.bsSync = u.bsSync ∧
      t = { complete params k.other (u.setSlot k (r.framedAt u.ptr m)) with
            slotTimer := 180
            ptr := BitVec.ofNat 10 ((u.ptr.toNat + 1) % 576)
            responses := u.responses ++
              [okResponse [if t.slot0.st ≠ .idle ∨ t.slot1.st ≠ .idle then 0x01 else 0x00]] } := by
  refine ⟨_, finishBit_of_framed_due hp hdue, ?_⟩
  obtain ⟨cmode, cptr, clocked, ctimer, cmis, cnoSync, cbs, cresp⟩ :=
    complete_frame params k.other (u.setSlot k (r.framedAt u.ptr m))
  rw [State.setSlot_cfgMode, hmode] at cmode
  rw [State.setSlot_locked, hlocked] at clocked
  rw [State.setSlot_slotTimer, htimer] at ctimer
  rw [State.setSlot_misMatch] at cmis
  rw [State.setSlot_noSync] at cnoSync
  rw [State.setSlot_bsSync] at cbs
  rw [flywheel_after_match params cmode clocked ctimer, respondActive_advancePtr, cptr, cresp, State.setSlot_ptr,
    State.setSlot_responses]
  exact ⟨clocked, cmis, cnoSync, cbs, rfl⟩

end Sys2Proof.Machine
end

section
/-! One accepted BIT that finds a match: the statements about framing, lock and re-alignment. -/

open Sys2Proof Sys2Proof.Machine Sys2Proof.Config

/-- Settles O42: step 2 frames the attributed slot; the other one completes or not; step 4 is off. -/
theorem duplexMatchFramesItsSlot : Obligations.DuplexMatchFramesItsSlot := by
  intro s b m k hdelay hmode hptr hfound hk
  have hslot : attributedSlot params (storeBit b s) = k :=
    (attributedSlot_of_duplex params (s := storeBit b s) hmode).trans (windowSlot_getD hk)
  rw [exec_bitCommand_of_accepted hdelay, respondActive_acceptBit, syncStep_of_some hfound,
    accept_of_duplex (s := storeBit b s) hmode, hslot, storeBit_slot]
  refine ⟨fun hdue => ?_, fun hdue => ?_⟩
  · refine ⟨_, congrArg _ (finishBit_of_framed hptr (by cases k <;> exact hdue)), ?_⟩
    rw [flywheel_of_off params (.inl (by rw [State.setSlot_cfgMode]; exact hmode))]
    cases k <;> exact ⟨stored_of_eq_storeBit rfl rfl, position_toNat _, rfl, rfl, rfl, rfl, rfl⟩
  · obtain ⟨t, ht, hform⟩ := finishBit_of_duplex_due (k := k) (r := s.slot k) (m := m)
      (u := { storeBit b s with syncP := true, bsSync := s.bsSync || decide (m.role = .bs) }) hmode hptr
      (by cases k <;> exact hdue)
    exact ⟨t, congrArg _ ht, hform⟩

/-- Settles O43: step 2 locks and frames the CACH's slot; step 4 counts once. -/
theorem firstMatchLocksTheFlywheel : Obligations.FirstMatchLocksTheFlywheel := by
  intro s b m k hdelay hmode hlocked hptr hfound hk
  have hslot : attributedSlot params (storeBit b s) = k :=
    (attributedSlot_of_unlocked params (s := storeBit b s) hmode hlocked).trans hk.symm
  rw [exec_bitCommand_of_accepted hdelay, respondActive_acceptBit, syncStep_of_some hfound,
    accept_of_unlocked (s := storeBit b s) hmode hlocked, hslot, storeBit_slot]
  refine ⟨fun hdue => ?_, fun hdue => ?_⟩
  · refine ⟨_, congrArg _ (finishBit_of_framed hptr (by cases k <;> exact hdue)), ?_⟩
    rw [flywheel_after_match params (by rw [State.setSlot_cfgMode]; exact hmode) (by rw [State.setSlot_locked])
      (by rw [State.setSlot_slotTimer])]
    cases k <;> exact ⟨stored_of_eq_storeBit rfl rfl, position_toNat _, rfl, rfl, rfl, rfl, rfl, rfl, rfl, rfl, rfl, rfl⟩
  · obtain ⟨t, ht, -, -, -, hbs, hform⟩ := finishBit_of_single_due (k := k) (r := s.slot k) (m := m)
      (u := { storeBit b s with
        locked := true, curSlot := k, slotTimer := 179, misMatch := 0, noSync := 0, syncP := true }) hmode rfl rfl hptr
      (by cases k <;> exact hdue)
    exact ⟨t, congrArg _ ht, hbs, hform⟩

/-- Settles O44: step 2 re-aligns to the attributed slot and frames it; step 4 counts once. -/
theorem lockedMatchRealignsTheFlywheel : Obligations.LockedMatchRealignsTheFlywheel := by
  intro s b m k hdelay hmode hlocked hptr hfound hk
  have hslot : attributedSlot params (storeBit b s) = k :=
    (attributedSlot_of_locked params (s := storeBit b s) hmode hlocked).trans (windowSlot_getD hk)
  rw [exec_bitCommand_of_accepted hdelay, respondActive_acceptBit, syncStep_of_some hfound,
    accept_of_locked (s := storeBit b s) hmode hlocked, hslot, storeBit_slot]
  refine ⟨fun hdue => ?_, fun hdue => ?_⟩
  · refine ⟨_, congrArg _ (finishBit_of_framed hptr (by cases k <;> exact hdue)), ?_⟩
    rw [flywheel_after_match params (by rw [State.setSlot_cfgMode]; exact hmode)
      (by rw [State.setSlot_locked]; exact hlocked) (by rw [State.setSlot_slotTimer])]
    cases k <;>
      exact ⟨stored_of_eq_storeBit rfl rfl, position_toNat _, hlocked, rfl, rfl, rfl, rfl, rfl, rfl, rfl, rfl, rfl⟩
  · obtain ⟨t, ht, hrest⟩ := finishBit_of_single_due (k := k) (r := s.slot k) (m := m)
      (u := { storeBit b s with curSlot := k, slotTimer := 179, syncP := true }) hmode hlocked rfl hptr
      (by cases k <;> exact hdue)
    exact ⟨t, congrArg _ ht, hrest⟩

end

section
/-! SUPPORT. The invariant of the state between commands, operation by operation (10_state.md R37–R54).

An accepted bit runs its steps with `DELAYCNT` 0, where the clauses about delayed bits hold trivially; so the invariant
itself serves between the steps of a bit. -/

namespace Sys2Proof.Machine

open Sys2Proof.Config (Params SyncMatch)

/-! ### Slot records -/

theorem SlotRec.reset_inv {bound : Nat} (h : 0 < bound) : SlotRec.reset.Inv bound where
  n_le := by decide
  miss_lt := h
  idle_miss _ := rfl
  armed hcall := by simp [SlotRec.reset] at hcall
  disarmed _ _ := ⟨rfl, rfl⟩

/-- A match arms the slot it frames (R225). -/
theorem SlotRec.Inv.framedAt {bound : Nat} {r : SlotRec} (h : r.Inv bound) {p : BitVec 10} (hp : p.toNat < 576)
    (m : SyncMatch) : (r.framedAt p m).Inv bound where
  n_le := h.n_le
  miss_lt := h.miss_lt
  idle_miss := h.idle_miss
  armed _ := ⟨p, hp, rfl, rfl⟩
  disarmed _ hseen := by cases hseen

/-- A slot that is due is in a call or has seen a match (R51, R52). -/
theorem SlotRec.Inv.armed_of_due {bound : Nat} {r : SlotRec} (h : r.Inv bound) {p : BitVec 10} (hdue : r.endPos = some p) :
    ∃ e : BitVec 10, e.toNat < 576 ∧ r.expSync = some e ∧ r.endPos = some (position (e.toNat + 108)) := by
  apply h.armed
  by_contra hnot
  obtain ⟨hidle, hseen⟩ := not_or.mp hnot
  obtain ⟨-, hnone⟩ := h.disarmed (not_not.mp hidle) (by simpa using hseen)
  cases hnone.symm.trans hdue

/-- The record a completion leaves below the loss threshold (R245). -/
theorem SlotRec.Inv.completed {bound : Nat} {r : SlotRec} (h : r.Inv bound) {p : BitVec 10} (hdue : r.endPos = some p)
    {st : CallState} {n : BitVec 3} {tag : Option (BitVec 4)} {miss : BitVec 5} (hn : n.toNat ≤ 5)
    (hmiss : st = .idle ∨ miss.toNat < bound) :
    ({ r with seen := false, st := st, n := n, tag := tag, miss := miss } : SlotRec).disarmIfIdle.Inv bound := by
  by_cases hst : st = .idle
  · rw [SlotRec.disarmIfIdle_of_idle hst]
    exact ⟨hn, Nat.lt_of_le_of_lt (Nat.zero_le _) h.miss_lt, fun _ => rfl, by simp [hst], fun _ _ => ⟨rfl, rfl⟩⟩
  · rw [SlotRec.disarmIfIdle_of_ne hst]
    exact ⟨hn, hmiss.resolve_left hst, fun hidle => absurd hidle hst, fun _ => h.armed_of_due hdue,
      fun hidle => absurd hidle hst⟩

/-! ### The state -/

theorem State.Inv.slot_inv {s : State} (h : s.Inv) (k : SlotId) : (s.slot k).Inv (lossN params s.cfgMode) := by
  cases k
  · exact h.slot0_inv
  · exact h.slot1_inv

/-- The streams are no part of the invariant. -/
theorem State.Inv.of_streams {s t : State} (h : s.Inv)
    (hst : t = { s with events := t.events, responses := t.responses, input := t.input }) : t.Inv := by
  rw [hst]
  exact ⟨h.ptr_lt, h.slotTimer_lt, h.misMatch_le, h.delayCnt_le, h.slot0_inv, h.slot1_inv, h.duplex_idle, h.single_bsSync,
    h.unlocked_clear, h.delaying_clear⟩

/-- With no bit to discard the clauses about delayed bits hold. -/
theorem State.inv_of_delayCnt_zero {s : State} (hdelay : s.delayCnt = 0) (hptr : s.ptr.toNat < 576)
    (htimer : s.slotTimer.toNat < 288) (hmis : s.misMatch.toNat ≤ 1)
    (hslots : ∀ k, (s.slot k).Inv (lossN params s.cfgMode))
    (hduplex : s.cfgMode = .duplex → s.locked = false ∧ s.curSlot = .zero ∧ s.slotTimer = 0 ∧ s.misMatch = 0 ∧
      s.noSync = 0 ∧ s.slot0.inv = false ∧ s.slot1.inv = false)
    (hsingle : s.cfgMode = .single → s.bsSync = false)
    (hunlocked : s.cfgMode = .single → s.locked = false → s.curSlot = .zero ∧ s.slotTimer = 0 ∧ s.misMatch = 0 ∧
      s.noSync = 0 ∧ s.syncP = false ∧ s.slot0 = SlotRec.reset ∧ s.slot1 = SlotRec.reset) : s.Inv where
  ptr_lt := hptr
  slotTimer_lt := htimer
  misMatch_le := hmis
  delayCnt_le := by simp [hdelay]
  slot0_inv := hslots .zero
  slot1_inv := hslots .one
  duplex_idle := hduplex
  single_bsSync := hsingle
  unlocked_clear := hunlocked
  delaying_clear hne := absurd hdelay hne

/-- `RECEIVE_RESET` establishes the invariant from any state (R282). -/
theorem State.receiveReset_inv (s : State) : s.receiveReset.Inv where
  ptr_lt := by simp
  slotTimer_lt := by simp
  misMatch_le := by simp
  delayCnt_le := Nat.le_refl _
  slot0_inv := SlotRec.reset_inv (lossN_params_pos s.cfgMode)
  slot1_inv := SlotRec.reset_inv (lossN_params_pos s.cfgMode)
  duplex_idle _ := ⟨rfl, rfl, rfl, rfl, rfl, rfl, rfl⟩
  single_bsSync _ := rfl
  unlocked_clear _ _ := ⟨rfl, rfl, rfl, rfl, rfl, rfl, rfl⟩
  delaying_clear _ := ⟨rfl, rfl, rfl, rfl, rfl, rfl, rfl, rfl⟩

theorem State.Inv.clearBsSync {s : State} (h : s.Inv) : s.clearBsSync.Inv where
  ptr_lt := h.ptr_lt
  slotTimer_lt := h.slotTimer_lt
  misMatch_le := h.misMatch_le
  delayCnt_le := h.delayCnt_le
  slot0_inv := h.slot0_inv
  slot1_inv := h.slot1_inv
  duplex_idle := h.duplex_idle
  single_bsSync _ := rfl
  unlocked_clear := h.unlocked_clear
  delaying_clear hne := by
    obtain ⟨hbuf, hptr, hpat, hlocked, hsync, -, hslots⟩ := h.delaying_clear hne
    exact ⟨hbuf, hptr, hpat, hlocked, hsync, rfl, hslots⟩

/-- A discarded bit counts down (R212). -/
theorem State.Inv.discardBit {s : State} (h : s.Inv) (hdelay : s.delayCnt ≠ 0) : (discardBit s).Inv where
  ptr_lt := h.ptr_lt
  slotTimer_lt := h.slotTimer_lt
  misMatch_le := h.misMatch_le
  delayCnt_le := by
    have hle := h.delayCnt_le
    rw [discardBit_delayCnt, discardBit_cfgDelay]
    bv_omega
  slot0_inv := h.slot0_inv
  slot1_inv := h.slot1_inv
  duplex_idle := h.duplex_idle
  single_bsSync := h.single_bsSync
  unlocked_clear := h.unlocked_clear
  delaying_clear _ := h.delaying_clear hdelay

/-! ### The steps of an accepted bit -/

theorem State.Inv.storeBit {s : State} (h : s.Inv) (hdelay : s.delayCnt = 0) (b : Bool) : (storeBit b s).Inv :=
  State.inv_of_delayCnt_zero hdelay h.ptr_lt h.slotTimer_lt h.misMatch_le (fun k => by simpa using h.slot_inv k)
    h.duplex_idle h.single_bsSync h.unlocked_clear

theorem State.Inv.advancePtr {s : State} (h : s.Inv) (hdelay : s.delayCnt = 0) : (advancePtr s).Inv :=
  State.inv_of_delayCnt_zero hdelay (position_lt _) h.slotTimer_lt h.misMatch_le (fun k => by simpa using h.slot_inv k)
    h.duplex_idle h.single_bsSync h.unlocked_clear

/-- In duplex mode no inverted template is enabled (R222). -/
theorem inverted_eq_false_of_duplex {P : Params} {s : State} {m : SyncMatch} (hmode : s.cfgMode = .duplex)
    (hfound : syncFound P s = some m) : m.inverted = false := by
  have hcorr : corr P .duplex (s.pat.setWidth 48) = some m := by
    unfold syncFound at hfound
    split at hfound
    · rwa [hmode] at hfound
    · cases hfound
  obtain ⟨t, ht, -, rfl⟩ := corr_some hcorr
  obtain ⟨template, -, rfl⟩ := List.mem_map.mp ht
  rfl

/-- The slots after a match: one framed, the other as it was (R225). -/
theorem State.Inv.slots_framed {s u : State} (h : s.Inv) (hmode : u.cfgMode = s.cfgMode) (hslot : ∀ j, u.slot j = s.slot j)
    (k : SlotId) (m : SyncMatch) (j : SlotId) :
    ((u.setSlot k ((s.slot k).framedAt s.ptr m)).slot j).Inv
      (lossN params (u.setSlot k ((s.slot k).framedAt s.ptr m)).cfgMode) := by
  rw [State.setSlot_cfgMode, hmode, State.slot_setSlot]
  split
  · exact (h.slot_inv k).framedAt h.ptr_lt m
  · rw [hslot]; exact h.slot_inv j

theorem State.Inv.accept {s : State} (h : s.Inv) (hdelay : s.delayCnt = 0) {m : SyncMatch}
    (hfound : syncFound params s = some m) : (accept params m s).Inv := by
  obtain hmode | hmode := s.cfgMode.duplex_or_single
  · rw [accept_of_duplex hmode]
    obtain ⟨hlocked, hcur, htimer, hmis, hnoSync, hinv0, hinv1⟩ := h.duplex_idle hmode
    have hminv := inverted_eq_false_of_duplex hmode hfound
    refine State.inv_of_delayCnt_zero (by simpa using hdelay) (by simpa using h.ptr_lt) (by simpa using h.slotTimer_lt)
      (by simpa using h.misMatch_le) (h.slots_framed (by rfl) (by intro j; cases j <;> rfl) _ m) (fun _ => ?_) (fun hsingle => ?_)
      (fun hsingle => ?_)
    · cases attributedSlot params s
      · exact ⟨hlocked, hcur, htimer, hmis, hnoSync, hminv, hinv1⟩
      · exact ⟨hlocked, hcur, htimer, hmis, hnoSync, hinv0, hminv⟩
    · rw [State.setSlot_cfgMode] at hsingle
      cases hmode.symm.trans hsingle
    · rw [State.setSlot_cfgMode] at hsingle
      cases hmode.symm.trans hsingle
  · have hbs := h.single_bsSync hmode
    cases hlocked : s.locked with
    | false =>
      rw [accept_of_unlocked hmode hlocked]
      refine State.inv_of_delayCnt_zero (by simpa using hdelay) (by simpa using h.ptr_lt) (by simp) (by simp)
        (h.slots_framed (by rfl) (by intro j; cases j <;> rfl) _ m) (fun hduplex => ?_) (fun _ => by simpa using hbs)
        (fun _ hunlocked => ?_)
      · rw [State.setSlot_cfgMode] at hduplex
        cases hmode.symm.trans hduplex
      · rw [State.setSlot_locked] at hunlocked
        cases hunlocked
    | true =>
      rw [accept_of_locked hmode hlocked]
      refine State.inv_of_delayCnt_zero (by simpa using hdelay) (by simpa using h.ptr_lt) (by simp)
        (by simpa using h.misMatch_le) (h.slots_framed (by rfl) (by intro j; cases j <;> rfl) _ m) (fun hduplex => ?_)
        (fun _ => by simpa using hbs) (fun _ hunlocked => ?_)
      · rw [State.setSlot_cfgMode] at hduplex
        cases hmode.symm.trans hduplex
      · rw [State.setSlot_locked] at hunlocked
        cases hlocked.symm.trans hunlocked

theorem State.Inv.syncStep {s : State} (h : s.Inv) (hdelay : s.delayCnt = 0) : (syncStep params s).Inv := by
  obtain ⟨-, hs⟩ | ⟨m, hfound, hs⟩ := syncStep_cases params s <;> rw [hs]
  · exact h
  · exact h.accept hdelay hfound

/-- Before its loss check a completion rewrites `ST`, `N`, `TAG` and `MISS`; a position of 0–5 stays one. -/
theorem completionFrame_record (P : Params) (k : SlotId) {s : State} (hn : (s.slot k).n.toNat ≤ 5) :
    ∃ es st n tag miss, completionFrame P k s = s.withCompletion k es
      { s.slot k with seen := false, st := st, n := n, tag := tag, miss := miss } ∧ n.toNat ≤ 5 := by
  obtain ⟨es, r, hframe, -⟩ := exists_completionFrame_eq P k s
  obtain ⟨st, n, tag, miss, hrec, hcases, -⟩ := slot_frameBurst P k (s.slot k) (s.burstOf k)
    (s.withCompletion k [] { s.slot k with seen := false })
  rw [State.withCompletion_slot_self] at hrec hcases
  have hr : r = { s.slot k with seen := false, st := st, n := n, tag := tag, miss := miss } := by
    rw [← hrec]
    exact ((congrArg (State.slot · k) hframe).trans (State.withCompletion_slot_self s k es r)).symm
  refine ⟨es, st, n, tag, miss, hr ▸ hframe, ?_⟩
  obtain rfl | rfl | rfl | ⟨hlt, rfl⟩ := hcases
  · decide
  · decide
  · exact hn
  · rw [BitVec.toNat_add]
    exact (Nat.mod_le _ _).trans hlt

/-- The record a completion leaves, in a slot that was due: of the invariant, and framed by no inverted template that was
not there before. -/
theorem complete_slot_inv {s : State} {k : SlotId} (h : (s.slot k).Inv (lossN params s.cfgMode))
    (hdue : (s.slot k).endPos = some s.ptr) :
    ((complete params k s).slot k).Inv (lossN params s.cfgMode) ∧
      (((complete params k s).slot k).inv = (s.slot k).inv ∨ ((complete params k s).slot k).inv = false) := by
  obtain ⟨es, st, n, tag, miss, hframe, hn⟩ := completionFrame_record params k h.n_le
  by_cases hlost : st ≠ .idle ∧ lossN params s.cfgMode ≤ miss.toNat
  · have hreset : (complete params k s).slot k = SlotRec.reset := by
      rw [complete_of_lost hframe hlost.1 hlost.2, State.clearIfDuplex]
      split <;> simp
    rw [hreset]
    exact ⟨SlotRec.reset_inv (lossN_params_pos s.cfgMode), .inr rfl⟩
  · have hkept : st = .idle ∨ miss.toNat < lossN params s.cfgMode := by
      by_cases hst : st = .idle
      · exact .inl hst
      · exact .inr (Nat.lt_of_not_le fun hmiss => hlost ⟨hst, hmiss⟩)
    rw [complete_of_kept hframe hkept, State.withCompletion_slot_self]
    refine ⟨h.completed hdue hn hkept, .inl ?_⟩
    unfold SlotRec.disarmIfIdle
    split <;> rfl

theorem State.Inv.completeIfDue {s : State} (h : s.Inv) (hdelay : s.delayCnt = 0) (k : SlotId) :
    (completeIfDue params k s).Inv := by
  by_cases hdue : (s.slot k).endPos = some s.ptr
  swap
  · rwa [completeIfDue_of_ne params hdue]
  obtain ⟨-, -, cmode, cptr, cdelay, clocked, ccur, ctimer, cmis, cnoSync, csyncP, cbs, -, -, cother, -⟩ :=
    completeIfDue_frame params k s
  obtain ⟨hslot, hinv⟩ := complete_slot_inv (h.slot_inv k) hdue
  rw [completeIfDue_of_eq params hdue] at *
  refine State.inv_of_delayCnt_zero (cdelay.trans hdelay) (cptr ▸ h.ptr_lt) (ctimer ▸ h.slotTimer_lt) (cmis ▸ h.misMatch_le)
    (fun j => ?_) (fun hmode => ?_) (fun hmode => ?_) (fun hmode hunlocked => ?_)
  · rw [cmode]
    obtain rfl | rfl := SlotId.eq_or_other k j
    · exact hslot
    · rw [cother]; exact h.slot_inv _
  · obtain ⟨hlocked, hcur, htimer, hmis, hnoSync, hinv0, hinv1⟩ := h.duplex_idle (cmode ▸ hmode)
    refine ⟨clocked.trans hlocked, ccur.trans hcur, ctimer.trans htimer, cmis.trans hmis, cnoSync.trans hnoSync, ?_⟩
    cases k with
    | zero =>
      have hsame : (complete params .zero s).slot1 = s.slot1 := cother
      exact ⟨hinv.elim (·.trans hinv0) id, hsame ▸ hinv1⟩
    | one =>
      have hsame : (complete params .one s).slot0 = s.slot0 := cother
      exact ⟨hsame ▸ hinv0, hinv.elim (·.trans hinv1) id⟩
  · exact cbs.trans (h.single_bsSync (cmode ▸ hmode))
  · obtain ⟨-, -, -, -, -, hslot0, hslot1⟩ := h.unlocked_clear (cmode ▸ hmode) (clocked ▸ hunlocked)
    have hnone : (s.slot k).endPos = none := by
      cases k
      · rw [State.slot_zero, hslot0]; rfl
      · rw [State.slot_one, hslot1]; rfl
    cases hnone.symm.trans hdue

theorem State.Inv.flywheel {s : State} (h : s.Inv) (hdelay : s.delayCnt = 0) : (flywheel params s).Inv := by
  obtain ⟨-, hf⟩ | ⟨hmode, hlocked, hbelow, hf⟩ | ⟨hmode, hlocked, -, hf⟩ := flywheel_cases params s <;> rw [hf]
  · exact h
  · have htimer := h.slotTimer_lt
    refine State.inv_of_delayCnt_zero hdelay h.ptr_lt (by simp only; bv_omega) h.misMatch_le (fun k => ?_)
      (fun hduplex => ?_) h.single_bsSync (fun _ hunlocked => ?_)
    · cases k
      · exact h.slot0_inv
      · exact h.slot1_inv
    · cases hmode.symm.trans hduplex
    · cases hlocked.symm.trans hunlocked
  · cases hunlock : unlockDue params (periodCount params s) with
    | false =>
      rw [periodEnd_of_wrap h.misMatch_le hunlock]
      refine State.inv_of_delayCnt_zero hdelay h.ptr_lt (by simp) ?_ (fun k => ?_) (fun hduplex => ?_) h.single_bsSync
        (fun _ hunlocked => ?_)
      · simp only; split <;> decide
      · cases k <;> simp only [State.slot_zero, State.slot_one] <;> split
        · exact h.slot1_inv
        · exact h.slot0_inv
        · exact h.slot0_inv
        · exact h.slot1_inv
      · cases hmode.symm.trans hduplex
      · cases hlocked.symm.trans hunlocked
    | true =>
      rw [periodEnd_of_unlock hunlock]
      refine State.inv_of_delayCnt_zero hdelay h.ptr_lt (by simp) (by simp) (fun k => ?_) (fun hduplex => ?_)
        h.single_bsSync (fun _ _ => ⟨rfl, rfl, rfl, rfl, rfl, rfl, rfl⟩)
      · cases k <;> exact SlotRec.reset_inv (lossN_params_pos s.cfgMode)
      · cases hmode.symm.trans hduplex

theorem syncStep_delayCnt (P : Params) (s : State) : (syncStep P s).delayCnt = s.delayCnt := by
  obtain ⟨-, -, -, -, -, -, h, -⟩ := syncStep_frame P s
  exact h

theorem completeIfDue_delayCnt (P : Params) (k : SlotId) (s : State) :
    (completeIfDue P k s).delayCnt = s.delayCnt := by
  obtain ⟨-, -, -, -, h, -⟩ := completeIfDue_frame P k s
  exact h

theorem flywheel_delayCnt (P : Params) (s : State) : (flywheel P s).delayCnt = s.delayCnt := by
  obtain ⟨-, -, -, -, h, -⟩ := flywheel_frame P s
  exact h

/-- An accepted bit keeps the invariant: each of its steps does, with `DELAYCNT` 0 throughout (R211). -/
theorem State.Inv.acceptBit {s : State} (h : s.Inv) (hdelay : s.delayCnt = 0) (b : Bool) : (acceptBit params b s).Inv := by
  have hsync := (h.storeBit hdelay b).syncStep hdelay
  have hdsync := (syncStep_delayCnt params (Machine.storeBit b s)).trans hdelay
  have hslot0 := hsync.completeIfDue hdsync .zero
  have hdslot0 := (completeIfDue_delayCnt params .zero _).trans hdsync
  have hslot1 := hslot0.completeIfDue hdslot0 .one
  have hdslot1 := (completeIfDue_delayCnt params .one _).trans hdslot0
  exact (hslot1.flywheel hdslot1).advancePtr ((flywheel_delayCnt params _).trans hdslot1)

theorem State.Inv.receiveBit {s : State} (h : s.Inv) (b : Bool) : (receiveBit params b s).Inv := by
  obtain ⟨hdelay, hr⟩ | ⟨hdelay, hr⟩ := receiveBit_cases params b s <;> rw [hr]
  · exact h.discardBit hdelay
  · exact h.acceptBit hdelay b

/-- Every command keeps the invariant. -/
theorem State.Inv.exec {s t : State} (h : s.Inv) {i : Instr} (hexec : exec i s = .next t) : t.Inv := by
  obtain ⟨u, payload, hu, hcases⟩ := exec_cases i s
  obtain rfl := Host.Outcome.next.inj (hu.symm.trans hexec)
  have hinv : u.Inv := by
    obtain rfl | rfl | ⟨mode, cc, delay, rfl⟩ | rfl | ⟨b, rfl⟩ := hcases
    · exact h
    · exact s.receiveReset_inv
    · exact State.receiveReset_inv _
    · exact h.clearBsSync
    · exact h.receiveBit b
  exact hinv.of_streams rfl

end Sys2Proof.Machine
end

section
/-! The invariant: the statements that it holds at power-up and that every step keeps it. -/

open Sys2Proof Sys2Proof.Machine

/-- Settles O22: power-up is a state that `RECEIVE_RESET` leaves. -/
theorem powerUpSatisfiesInvariant : Obligations.PowerUpSatisfiesInvariant := by
  have hinv := State.reset.receiveReset_inv
  rwa [State.receiveReset_powerUp] at hinv

/-- Settles O23: the command of a step keeps the invariant; an illegal opcode and a waiting step write only the streams. -/
theorem everyStepKeepsInvariant : Obligations.EveryStepKeepsInvariant := by
  intro s t h hstep
  cases hdecode : decode s.input with
  | command i rest =>
    have htaken : (s.withInput rest).Inv := h.of_streams rfl
    exact htaken.exec ((step_of_command hdecode).symm.trans hstep)
  | illegalOpcode opcode rest =>
    cases (step_of_illegalOpcode hdecode).symm.trans hstep
    exact h.of_streams rfl
  | incomplete =>
    cases (step_of_incomplete hdecode).symm.trans hstep
    exact h

end

section
/-! SUPPORT. Distances of 48-bit words and the enabled templates (43_slot_receiver.md R218, R221, 30_encoding.md R104). -/

namespace Sys2Proof.Machine

open Sys2Proof.Config (Params SyncMatch)

/-- The weight of a word as a count over its bit positions (R11). -/
theorem popcount_eq_countP {n : Nat} (v : BitVec n) : popcount v = (List.range n).countP v.getLsbD := by
  have hcount (l : List Nat) (acc : Nat) :
      l.foldl (fun count i => if v.getLsbD i then count + 1 else count) acc = acc + l.countP v.getLsbD := by
    induction l generalizing acc with
    | nil => rfl
    | cons i l ih =>
      rw [List.foldl_cons, ih, List.countP_cons]
      split <;> omega
  rw [popcount, hcount, Nat.zero_add]

/-- The weight of a sum is at most the sum of the weights. -/
theorem popcount_xor_le {n : Nat} (v w : BitVec n) : popcount (v ^^^ w) ≤ popcount v + popcount w := by
  rw [popcount_eq_countP, popcount_eq_countP, popcount_eq_countP]
  induction List.range n with
  | nil => simp
  | cons i l ih =>
    rw [List.countP_cons, List.countP_cons, List.countP_cons, BitVec.getLsbD_xor]
    cases v.getLsbD i <;> cases w.getLsbD i <;> simp <;> omega

/-- The triangle inequality of the template distance (R221). -/
theorem hammingDistance_triangle (w t u : BitVec 48) :
    hammingDistance t u ≤ hammingDistance w t + hammingDistance w u := by
  have hxor : t ^^^ u = (w ^^^ t) ^^^ (w ^^^ u) := by
    rw [BitVec.xor_comm w t, BitVec.xor_assoc, ← BitVec.xor_assoc w w u, BitVec.xor_self, BitVec.zero_xor]
  rw [hammingDistance, hxor]
  exact popcount_xor_le _ _

/-- The templates the defaults enable are those of the table (R104, R222). -/
theorem enabledTemplates_params (mode : Mode) : enabledTemplates params mode = syncTable mode := by
  cases mode <;> decide

/-- Two templates within distance 6 of each other are one: the table is free of confusions at threshold 3. -/
theorem syncTable_separated (mode : Mode) :
    ∀ t ∈ syncTable mode, ∀ u ∈ syncTable mode, hammingDistance t.1 u.1 ≤ 6 → t = u := by
  cases mode <;> decide +kernel

end Sys2Proof.Machine
end

section
/-! SUPPORT. The Hamming(7,4) decoder of the slot indicator (43_slot_receiver.md R250–R253). -/

namespace Sys2Proof.Machine

/-- The syndrome of a sum of words is the sum of the syndromes (R251). -/
theorem tactSyndrome_xor (v w : BitVec 7) : tactSyndrome (v ^^^ w) = tactSyndrome v ^^^ tactSyndrome w := by
  apply BitVec.eq_of_getLsbD_eq
  intro i hi
  rw [BitVec.getLsbD_xor, tactSyndrome, tactSyndrome, tactSyndrome, getLsbD_ofBits, getLsbD_ofBits, getLsbD_ofBits,
    decide_eq_true hi, Bool.true_and, Bool.true_and, Bool.true_and]
  match i with
  | 0 | 1 | _ + 2 =>
    simp only [BitVec.getLsbD_xor, Bool.xor_assoc, Bool.xor_left_comm]

/-- The table of R251 names the bit whose single flip produces the syndrome. -/
theorem tactPosition_twoPow : ∀ j < 7, tactPosition (tactSyndrome (BitVec.twoPow 7 j)) = some j := by
  decide

/-- A codeword's syndrome is 0 (R251). -/
theorem tactSyndrome_eq_zero {t : BitVec 7} (h4 : t.getLsbD 4 = (t.getLsbD 0 ^^ t.getLsbD 1 ^^ t.getLsbD 2))
    (h5 : t.getLsbD 5 = (t.getLsbD 1 ^^ t.getLsbD 2 ^^ t.getLsbD 3))
    (h6 : t.getLsbD 6 = (t.getLsbD 0 ^^ t.getLsbD 1 ^^ t.getLsbD 3)) : tactSyndrome t = 0 := by
  apply BitVec.eq_of_getLsbD_eq
  intro i hi
  rw [tactSyndrome, getLsbD_ofBits, decide_eq_true hi, Bool.true_and]
  match i with
  | 0 => rw [h4]; cases t.getLsbD 0 <;> cases t.getLsbD 1 <;> cases t.getLsbD 2 <;> rfl
  | 1 => rw [h5]; cases t.getLsbD 1 <;> cases t.getLsbD 2 <;> cases t.getLsbD 3 <;> rfl
  | 2 => rw [h6]; cases t.getLsbD 0 <;> cases t.getLsbD 1 <;> cases t.getLsbD 3 <;> rfl

theorem tactCorrect_of_syndrome_zero {t : BitVec 7} (h : tactSyndrome t = 0) : tactCorrect t = t := by
  rw [tactCorrect, h]
  rfl

/-- Flipping a bit twice leaves the word. -/
theorem flipBit_flipBit {n : Nat} (v : BitVec n) (i : Nat) : flipBit (flipBit v i) i = v := by
  rw [flipBit, flipBit, BitVec.xor_assoc, BitVec.xor_self, BitVec.xor_zero]

/-- The decoder undoes a single flip of a codeword (R251). -/
theorem tactCorrect_flipBit {t : BitVec 7} (h : tactSyndrome t = 0) {j : Nat} (hj : j < 7) :
    tactCorrect (flipBit t j) = t := by
  have hsyn : tactSyndrome (flipBit t j) = tactSyndrome (BitVec.twoPow 7 j) := by
    rw [flipBit, tactSyndrome_xor, h]
    exact BitVec.zero_xor
  rw [tactCorrect, hsyn, tactPosition_twoPow j hj]
  exact flipBit_flipBit t j

theorem SlotId.ofBit_eq_ite (b : Bool) : SlotId.ofBit b = if b then .one else .zero := by
  cases b <;> rfl

/-- TACT bits that are those of `t` but for bit `wrong` (R252). -/
theorem tactWord_eq_of_bits {t : BitVec 7} {buf : Buf} {q wrong : Nat}
    (h : ∀ j < 7, buf.getLsbD ((q + [0, 4, 8, 12, 13, 17, 21].getD j 0) % 576) = (t.getLsbD j ^^ decide (j = wrong))) :
    tactWord params buf q = flipBit t wrong := by
  apply BitVec.eq_of_getLsbD_eq
  intro j hj
  rw [tactWord, getLsbD_ofBits, decide_eq_true hj, Bool.true_and, getLsbD_flipBit, decide_eq_true hj, Bool.true_and,
    decide_eq_decide.mpr (eq_comm (a := wrong))]
  exact h j hj

end Sys2Proof.Machine
end

section
/-! The correlator and the slot indicator: the statements about their tolerance of wrong bits. -/

open Sys2Proof Sys2Proof.Machine

/-- Settles O40: no two templates are near enough for one word to be within distance 3 of both. -/
theorem correlatorAcceptsWithinThree : Obligations.CorrelatorAcceptsWithinThree := by
  intro mode w
  constructor
  · intro t ht hnear
    cases hcorr : corr params mode w with
    | none =>
      rw [corr_none, enabledTemplates_params] at hcorr
      exact absurd hnear (hcorr t ht)
    | some m =>
      obtain ⟨u, hu, hunear, rfl⟩ := corr_some hcorr
      rw [enabledTemplates_params] at hu
      have hsum : hammingDistance t.1 u.1 ≤ 3 + 3 :=
        (hammingDistance_triangle w t.1 u.1).trans (Nat.add_le_add hnear hunear)
      rw [syncTable_separated mode t ht u hu hsum]
  · intro hfar
    rw [corr_none, enabledTemplates_params]
    exact fun t ht => Nat.not_le.mpr (hfar t ht)

/-- Settles O46: the received TACT word is the codeword or one flip of it, and the decoder undoes either. -/
theorem tactSlotSurvivesOneWrongBit : Obligations.TactSlotSurvivesOneWrongBit := by
  intro t h4 h5 h6
  have hsyn := tactSyndrome_eq_zero h4 h5 h6
  refine ⟨⟨tactCorrect_of_syndrome_zero hsyn, fun j => tactCorrect_flipBit hsyn⟩, fun buf q wrong hbits => ?_⟩
  have hcorrect : tactCorrect (tactWord params buf q) = t := by
    rw [tactWord_eq_of_bits hbits]
    by_cases hwrong : wrong < 7
    · exact tactCorrect_flipBit hsyn hwrong
    · have hsame : flipBit t wrong = t := by
        rw [flipBit, BitVec.twoPow, BitVec.shiftLeft_eq_zero (by omega), BitVec.xor_zero]
      rw [hsame]
      exact tactCorrect_of_syndrome_zero hsyn
  rw [tactSlot, hcorrect, SlotId.ofBit_eq_ite]

end

section
/-! SUPPORT. The Hamming(15,11) word decoder on codewords and on single flips (40_fec_bptc.md R135–R137). -/

namespace Sys2Proof.Machine

open Sys2Proof.Config (Params)

/-- The bits of the syndrome are the four checks (R135, R136). -/
theorem map_syndrome_eq_checkBits (w : BitVec 15) :
    (List.range 4).map (fun j => (syndrome params w).getLsbD j) = checkBits w := by
  simp only [getLsbD_syndrome]
  rfl

/-- Words of one syndrome have the same checks, and conversely. -/
theorem checkBits_eq_iff (w : BitVec 15) (syn : BitVec 4) :
    checkBits w = (List.range 4).map syn.getLsbD ↔ syndrome params w = syn := by
  rw [← map_syndrome_eq_checkBits]
  constructor
  · intro h
    apply BitVec.eq_of_getLsbD_eq
    intro j hj
    exact List.map_inj_left.mp h j (List.mem_range.mpr hj)
  · rintro rfl
    rfl

/-- A word is a codeword exactly when its syndrome is 0 (R135, R136). -/
theorem isCodeword_iff (w : BitVec 15) : IsCodeword w ↔ syndrome params w = 0 := checkBits_eq_iff w 0

/-- The table names the position whose single flip produces the syndrome (R136). -/
theorem h15Position_twoPow : ∀ pos < 15, h15Position params (syndrome params (BitVec.twoPow 15 pos)) = some pos := by
  decide +kernel

/-- Only syndrome 0 selects no position: the code is perfect (R136). -/
theorem eq_zero_of_h15Position_none : ∀ syn : BitVec 4, h15Position params syn = none → syn = 0 := by
  decide +kernel

/-- A codeword is left alone (R137). -/
theorem hcorr_of_codeword {w : BitVec 15} (h : IsCodeword w) : hcorr params w = (w, none) :=
  hcorr_of_syndrome_zero ((isCodeword_iff w).mp h)

/-- A single flip of a codeword is corrected (R137). -/
theorem hcorr_flipBit {w : BitVec 15} (h : IsCodeword w) {pos : Nat} (hpos : pos < 15) :
    hcorr params (flipBit w pos) = (w, some pos) := by
  have hsyn : syndrome params (flipBit w pos) = syndrome params (BitVec.twoPow 15 pos) := by
    rw [syndrome_flipBit, (isCodeword_iff w).mp h]
    exact BitVec.zero_xor
  rw [hcorr, hsyn, h15Position_twoPow pos hpos]
  exact congrArg (·, some pos) (flipBit_flipBit w pos)

/-- A word one flip away from a codeword is corrected to it (R137). -/
theorem hcorr_of_flip_codeword {w : BitVec 15} {pos : Nat} (h : IsCodeword (flipBit w pos)) (hpos : pos < 15) :
    hcorr params w = (flipBit w pos, some pos) := by
  have hflipped := hcorr_flipBit h hpos
  rwa [flipBit_flipBit] at hflipped

/-! ### Rows and columns -/

theorem rowCorrect_of_codeword {acc : Work × Bool} {r : Nat} (h : IsCodeword (rowWord acc.1 r)) :
    rowCorrect params acc r = acc := by
  rw [rowCorrect, hcorr_of_codeword h]

theorem rowCorrect_of_flip {acc : Work × Bool} {r c : Nat} (h : IsCodeword (flipBit (rowWord acc.1 r) c)) (hc : c < 15) :
    rowCorrect params acc r = (flipBit acc.1 (cell r c), true) := by
  rw [rowCorrect, hcorr_of_flip_codeword h hc]

theorem colCorrect_of_codeword {acc : Work × Bool} {c : Nat} (h : IsCodeword (colWord acc.1 c)) :
    colCorrect params acc c = acc := by
  rw [colCorrect, hcorr_of_codeword h]

theorem colCorrect_of_flip {acc : Work × Bool} {r c : Nat} (h : IsCodeword (flipBit (colWord acc.1 c) (2 + r)))
    (hr : r < 13) : colCorrect params acc c = (flipBit acc.1 (cell r c), true) := by
  rw [colCorrect, hcorr_of_flip_codeword h (by omega)]
  simp

/-- A syndrome that selects a forced zero writes nothing (R139). -/
theorem colCorrect_of_virtual {acc : Work × Bool} {c pos : Nat}
    (h : h15Position params (syndrome params (colWord acc.1 c)) = some pos) (hpos : pos < 2) :
    colCorrect params acc c = acc := by
  have hselected : hcorr params (colWord acc.1 c) = (flipBit (colWord acc.1 c) pos, some pos) := by rw [hcorr, h]
  rw [colCorrect, hselected]
  exact if_neg (by omega)

end Sys2Proof.Machine
end

section
/-! The word decoder: the statements about its table and its corrections. -/

open Sys2Proof Sys2Proof.Machine

/-- Settles O25: the checks are the syndrome's bits; the table is evaluated at its 16 syndromes. -/
theorem hammingSyndromeTable : Obligations.HammingSyndromeTable :=
  ⟨map_syndrome_eq_checkBits, by decide +kernel⟩

/-- Settles O26: a syndrome that selects no position is 0, and one that does is cleared by the flip. -/
theorem hammingCorrectsOneFlip : Obligations.HammingCorrectsOneFlip := by
  refine ⟨fun w => hcorr_of_codeword, fun w pos h hpos => hcorr_flipBit h hpos, fun w => ?_⟩
  obtain ⟨hnone, h⟩ | ⟨pos, -, h, hpos, hsyn⟩ := hcorr_cases params w <;> rw [h]
  · exact ⟨(isCodeword_iff w).mpr (eq_zero_of_h15Position_none _ hnone), .inl rfl⟩
  · exact ⟨(isCodeword_iff _).mpr hsyn, .inr ⟨pos, hpos, rfl⟩⟩

end

section
/-! SUPPORT. The passes of the block decoder: what they read, and that they end on the block they are near
(40_fec_bptc.md R138–R147). -/

namespace Sys2Proof.Machine

open Sys2Proof.Config (Params)

/-- BPTC_DECODE appends its 12 bytes and writes nothing else (R146). -/
theorem exec_bptcDecode (operand : List Byte) (s : State) :
    exec (.bptcDecode operand) s = .next
      { s with responses := s.responses ++ [okResponse (bptc params (codedOperand operand))] } := rfl

/-- Bit `k` of the working array is bit `13 k mod 196` of the operand (R113, R132). -/
theorem getLsbD_deinterleave_codedOperand (operand : List Byte) {k : Nat} (hk : k < 196) :
    (deinterleave params (codedOperand operand)).getLsbD k = stringBit operand (13 * k % 196) := by
  have hlt : 13 * k % 196 < 196 := Nat.mod_lt _ (by decide)
  rw [getLsbD_deinterleave_of_lt params _ hk, codedOperand, getLsbD_bits]
  exact (congrArg (· && _) (decide_eq_true hlt)).trans (Bool.true_and _)

/-- The output bytes of a matrix are those of its information bits (R145). -/
theorem bytesOf_extract (W : Work) : bytesOf 12 (extract params W) = informationBytes W := by
  refine List.map_congr_left fun i hi => ofBits_congr fun j hj => ?_
  have hi' : i < 12 := List.mem_range.mp hi
  rw [getLsbD_extract, decide_eq_true (by omega), Bool.true_and]
  rfl

theorem bptc_eq_informationBytes (coded : Coded) :
    bptc params coded = informationBytes (passLoop params 5 (deinterleave params coded)) :=
  bytesOf_extract _

/-- A pass of the defaults is the rows and then the columns (R140). -/
theorem pass_params (W : Work) : pass params W = rowsThenColumns W := rfl

/-! ### The pass loop -/

/-- The matrix after `i` passes. -/
def afterPasses (W : Work) : Nat → Work
  | 0 => W
  | i + 1 => (rowsThenColumns (afterPasses W i)).1

/-- One pass first, then `i`, are `i + 1` passes. -/
theorem afterPasses_pass (W : Work) (i : Nat) : afterPasses (rowsThenColumns W).1 i = afterPasses W (i + 1) := by
  induction i with
  | zero => rfl
  | succ i ih => rw [afterPasses, ih]; rfl

/-- The pass loop makes `n` passes: all but the last flipped, and the last is at the limit or flipped none (R140). -/
theorem passLoop_eq_afterPasses (m : Nat) (W : Work) :
    ∃ n, 1 ≤ n ∧ n ≤ m + 1 ∧ passLoop params (m + 1) W = afterPasses W n ∧
      (∀ i, i + 1 < n → (rowsThenColumns (afterPasses W i)).2 = true) ∧
      (n < m + 1 → (rowsThenColumns (afterPasses W (n - 1))).2 = false) := by
  induction m generalizing W with
  | zero =>
    refine ⟨1, Nat.le_refl _, Nat.le_refl _, ?_, fun i hi => by omega, fun h => by omega⟩
    obtain ⟨-, h⟩ | ⟨-, h⟩ := passLoop_succ params 0 W <;> exact h
  | succ m ih =>
    obtain ⟨hflip, h⟩ | ⟨hnone, h⟩ := passLoop_succ params (m + 1) W
    · obtain ⟨n, hpos, hle, hloop, hflips, hlast⟩ := ih (rowsThenColumns W).1
      refine ⟨n + 1, by omega, by omega, ?_, fun i hi => ?_, fun hlt => ?_⟩
      · rw [h, pass_params, hloop, afterPasses_pass]
      · cases i with
        | zero => exact hflip
        | succ i => rw [← afterPasses_pass]; exact hflips i (by omega)
      · have hlast' := hlast (by omega)
        rw [afterPasses_pass] at hlast'
        rwa [Nat.add_sub_cancel, ← Nat.sub_add_cancel hpos]
    · exact ⟨1, Nat.le_refl _, by omega, h, fun i hi => by omega, fun _ => hnone⟩

/-! ### The reserved bit -/

/-- Two arrays that agree on every cell: on every bit but the reserved bit 0 (R144). -/
def SameCells (V W : Work) : Prop := ∀ i, 1 ≤ i → V.getLsbD i = W.getLsbD i

/-- Two results of a step that agree on every cell and in the flip flag. -/
def SameResult (a b : Work × Bool) : Prop := SameCells a.1 b.1 ∧ a.2 = b.2

theorem SameCells.rowWord {V W : Work} (h : SameCells V W) (r : Nat) : rowWord V r = rowWord W r :=
  ofBits_congr fun c _ => h _ (cell_pos r c)

theorem SameCells.colWord {V W : Work} (h : SameCells V W) (c : Nat) : colWord V c = colWord W c :=
  ofBits_congr fun i _ => by rw [h _ (cell_pos (i - 2) c)]

theorem SameCells.flipBit {V W : Work} (h : SameCells V W) (i : Nat) : SameCells (flipBit V i) (flipBit W i) := by
  intro j hj
  rw [getLsbD_flipBit, getLsbD_flipBit, h j hj]

theorem SameResult.rowCorrect {a b : Work × Bool} (h : SameResult a b) (r : Nat) :
    SameResult (rowCorrect params a r) (rowCorrect params b r) := by
  obtain ⟨hcells, hflag⟩ := h
  unfold Machine.rowCorrect
  rw [hcells.rowWord]
  cases (hcorr params (Machine.rowWord b.1 r)).2 with
  | none => exact ⟨hcells, hflag⟩
  | some pos => exact ⟨hcells.flipBit _, rfl⟩

theorem SameResult.colCorrect {a b : Work × Bool} (h : SameResult a b) (c : Nat) :
    SameResult (colCorrect params a c) (colCorrect params b c) := by
  obtain ⟨hcells, hflag⟩ := h
  unfold Machine.colCorrect
  rw [hcells.colWord]
  cases (hcorr params (Machine.colWord b.1 c)).2 with
  | none => exact ⟨hcells, hflag⟩
  | some pos =>
    dsimp only
    split
    · exact ⟨hcells.flipBit _, rfl⟩
    · exact ⟨hcells, hflag⟩

/-- A fold of steps that keep agreement keeps it. -/
theorem SameResult.foldl {step : Work × Bool → Nat → Work × Bool}
    (hstep : ∀ {a b : Work × Bool}, SameResult a b → ∀ i, SameResult (step a i) (step b i)) (l : List Nat)
    {a b : Work × Bool} (h : SameResult a b) : SameResult (l.foldl step a) (l.foldl step b) := by
  induction l generalizing a b with
  | nil => exact h
  | cons i l ih => exact ih (hstep h i)

theorem SameCells.pass {V W : Work} (h : SameCells V W) : SameResult (rowsThenColumns V) (rowsThenColumns W) :=
  SameResult.foldl SameResult.colCorrect _ (SameResult.foldl SameResult.rowCorrect _ ⟨h, rfl⟩)

theorem SameCells.passLoop {V W : Work} (h : SameCells V W) (n : Nat) :
    SameCells (passLoop params n V) (passLoop params n W) := by
  induction n generalizing V W with
  | zero => exact h
  | succ n ih =>
    obtain ⟨hcells, hflag⟩ := h.pass
    rw [Machine.passLoop, Machine.passLoop, pass_params, pass_params, hflag]
    split
    · exact ih hcells
    · exact hcells

/-- The information bits lie in cells (R145). -/
theorem SameCells.informationBytes {V W : Work} (h : SameCells V W) : informationBytes V = informationBytes W :=
  List.map_congr_left fun _ _ => ofBits_congr fun _ _ => h _ (by omega)

/-- Only the reserved bit is read from coded bit 0: 13 is coprime to 196 (R134). -/
theorem mul_thirteen_mod_pos {k : Nat} (hpos : 1 ≤ k) (hlt : k < 196) : 1 ≤ 13 * k % 196 := by
  omega

/-- Operands that agree on bits 1–195 give arrays that agree on every cell (R114, R144). -/
theorem sameCells_of_stringBit {a b : List Byte} (h : ∀ i, 1 ≤ i → i < 196 → stringBit a i = stringBit b i) :
    SameCells (deinterleave params (codedOperand a)) (deinterleave params (codedOperand b)) := by
  intro k hpos
  by_cases hk : k < 196
  · rw [getLsbD_deinterleave_codedOperand a hk, getLsbD_deinterleave_codedOperand b hk]
    exact h _ (mul_thirteen_mod_pos hpos hk) (Nat.mod_lt _ (by decide))
  · rw [BitVec.getLsbD_of_ge _ k (by omega), BitVec.getLsbD_of_ge _ k (by omega)]

end Sys2Proof.Machine
end

section
/-! BPTC_DECODE: the statements about its passes and about the bits it ignores. -/

open Sys2Proof Sys2Proof.Machine

/-- Settles O28: arrays that differ in the reserved bit alone go through the same passes. -/
theorem bptcIgnoresReservedBits : Obligations.BptcIgnoresReservedBits := by
  intro s a b _ _ hagree
  rw [exec_bptcDecode, exec_bptcDecode, bptc_eq_informationBytes, bptc_eq_informationBytes,
    ((sameCells_of_stringBit hagree).passLoop 5).informationBytes]

/-- Settles O45: the row and column steps by the word's syndrome, and the pass loop by induction on its limit. -/
theorem bptcRunsItsPasses : Obligations.BptcRunsItsPasses := by
  refine ⟨fun W flip r _ => ⟨fun c hc => ?_, fun h => rowCorrect_of_codeword h, fun c hc h => rowCorrect_of_flip h hc⟩,
    fun W flip c _ => ⟨fun i hi => ?_, fun h => colCorrect_of_codeword h, ?_, fun r hr h => colCorrect_of_flip h hr⟩,
    fun s operand _ => ?_⟩
  · rw [getLsbD_rowWord, decide_eq_true hc, Bool.true_and]
    rfl
  · rw [getLsbD_colWord, decide_eq_true hi, Bool.true_and]
    rfl
  · rintro (h | h)
    · have hsyn := (checkBits_eq_iff (colWord W c) 0x9).mp h
      exact colCorrect_of_virtual (pos := 0) (by rw [hsyn]; decide +kernel) (by decide)
    · have hsyn := (checkBits_eq_iff (colWord W c) 0xB).mp h
      exact colCorrect_of_virtual (pos := 1) (by rw [hsyn]; decide +kernel) (by decide)
  · obtain ⟨n, hpos, hle, hloop, hflips, hlast⟩ := passLoop_eq_afterPasses 4 (deinterleave params (codedOperand operand))
    refine ⟨n, afterPasses (deinterleave params (codedOperand operand)), hpos, hle,
      fun k hk => getLsbD_deinterleave_codedOperand operand hk, fun i _ => rfl, hflips, hlast, ?_⟩
    rw [exec_bptcDecode, bptc_eq_informationBytes, hloop]

end

section
/-! SUPPORT. The correction guarantee of the block decoder (40_fec_bptc.md R147): with at most one error in every data row
and in every column, the row step restores the data rows and the column step the rest. -/

namespace Sys2Proof.Machine

/-- `V` holds `W`'s value in cell `(r, c)`. -/
def AgreeAt (V W : Work) (r c : Nat) : Prop := V.getLsbD (cell r c) = W.getLsbD (cell r c)

/-- A wrong bit is right after a flip. -/
theorem xor_true_eq_of_ne {a b : Bool} (h : a ≠ b) : (a ^^ true) = b := by
  revert a b
  decide

/-- A bit is wrong only where the error pattern is set. -/
theorem eq_true_of_xor_ne {a b : Bool} (h : (a ^^ b) ≠ a) : b = true := by
  revert a b
  decide

/-- A flipped cell that was wrong is right, and the other cells keep their values. -/
theorem getLsbD_flipBit_cell {V : Work} {r c r' c' : Nat} (hr : r < 13) (hc : c < 15) (hc' : c' < 15) :
    (flipBit V (cell r c)).getLsbD (cell r' c') =
      (V.getLsbD (cell r' c') ^^ (decide (r' = r) && decide (c' = c))) := by
  rw [getLsbD_flipBit]
  by_cases hsame : r' = r ∧ c' = c
  · obtain ⟨rfl, rfl⟩ := hsame
    simp [cell_lt hr hc]
  · have hne : cell r c ≠ cell r' c' := fun h => by
      obtain ⟨hr', hc'⟩ := cell_inj hc hc' h
      exact hsame ⟨hr'.symm, hc'.symm⟩
    have hnot : (decide (r' = r) && decide (c' = c)) = false := by
      simpa using fun h => mt (And.intro h) hsame
    rw [hnot, decide_eq_false hne, Bool.and_false]

theorem AgreeAt.flip {V W : Work} {r c : Nat} (h : ¬ AgreeAt V W r c) (hr : r < 13) (hc : c < 15) :
    AgreeAt (flipBit V (cell r c)) W r c := by
  unfold AgreeAt at *
  rw [getLsbD_flipBit_cell hr hc hc, decide_eq_true rfl, decide_eq_true rfl]
  exact xor_true_eq_of_ne h

theorem AgreeAt.flip_of_ne {V : Work} {r c r' c' : Nat} (hr : r < 13) (hc : c < 15) (hc' : c' < 15)
    (hne : r' ≠ r ∨ c' ≠ c) : AgreeAt (flipBit V (cell r c)) V r' c' := by
  have hnot : (decide (r' = r) && decide (c' = c)) = false := by
    obtain h | h := hne <;> simp [h]
  unfold AgreeAt
  rw [getLsbD_flipBit_cell hr hc hc', hnot, Bool.xor_false]

/-! ### One row, one column -/

/-- The row step on a row that is at most one error away from a codeword restores it and keeps the other rows (R138). -/
theorem rowCorrect_restores {W : Work} {acc : Work × Bool} {r : Nat} (hr : r < 13) (hcode : IsCodeword (rowWord W r))
    (hone : ∀ c < 15, ∀ c' < 15, ¬ AgreeAt acc.1 W r c → ¬ AgreeAt acc.1 W r c' → c = c') :
    (∀ c < 15, AgreeAt (rowCorrect params acc r).1 W r c) ∧
      ∀ r' c, r' ≠ r → c < 15 → AgreeAt (rowCorrect params acc r).1 acc.1 r' c := by
  by_cases hall : ∀ c < 15, AgreeAt acc.1 W r c
  · have hword : rowWord acc.1 r = rowWord W r := ofBits_congr hall
    rw [rowCorrect_of_codeword (hword ▸ hcode)]
    exact ⟨hall, fun _ _ _ _ => rfl⟩
  · obtain ⟨c, hc, hwrong⟩ : ∃ c < 15, ¬ AgreeAt acc.1 W r c := by simpa using hall
    have hword : flipBit (rowWord acc.1 r) c = rowWord W r := by
      apply BitVec.eq_of_getLsbD_eq
      intro c' hc'
      rw [getLsbD_flipBit, getLsbD_rowWord, getLsbD_rowWord, decide_eq_true hc', Bool.true_and, Bool.true_and, Bool.true_and]
      by_cases hcc : c = c'
      · subst hcc
        rw [decide_eq_true rfl]
        exact xor_true_eq_of_ne hwrong
      · rw [decide_eq_false hcc, Bool.xor_false]
        by_contra hwrong'
        exact hcc (hone c hc c' hc' hwrong hwrong')
    rw [rowCorrect_of_flip (hword ▸ hcode) hc]
    refine ⟨fun c' hc' => ?_, fun r' c' hr' hc' => AgreeAt.flip_of_ne hr hc hc' (.inl hr')⟩
    by_cases hcc : c' = c
    · subst hcc
      exact AgreeAt.flip hwrong hr hc
    · have hright : AgreeAt acc.1 W r c' := by
        by_contra hwrong'
        exact hcc (hone c' hc' c hc hwrong' hwrong)
      exact (AgreeAt.flip_of_ne hr hc hc' (.inr hcc)).trans hright

/-- The column step on a column that is at most one error away from a codeword restores it and keeps the other columns
(R139). -/
theorem colCorrect_restores {W : Work} {acc : Work × Bool} {c : Nat} (hc : c < 15) (hcode : IsCodeword (colWord W c))
    (hone : ∀ r < 13, ∀ r' < 13, ¬ AgreeAt acc.1 W r c → ¬ AgreeAt acc.1 W r' c → r = r') :
    (∀ r < 13, AgreeAt (colCorrect params acc c).1 W r c) ∧
      ∀ r c', c' ≠ c → c' < 15 → AgreeAt (colCorrect params acc c).1 acc.1 r c' := by
  by_cases hall : ∀ r < 13, AgreeAt acc.1 W r c
  · have hword : colWord acc.1 c = colWord W c := ofBits_congr fun i hi => by
      split
      · rfl
      · exact hall (i - 2) (by omega)
    rw [colCorrect_of_codeword (hword ▸ hcode)]
    exact ⟨hall, fun _ _ _ _ => rfl⟩
  · obtain ⟨r, hr, hwrong⟩ : ∃ r < 13, ¬ AgreeAt acc.1 W r c := by simpa using hall
    have hword : flipBit (colWord acc.1 c) (2 + r) = colWord W c := by
      apply BitVec.eq_of_getLsbD_eq
      intro i hi
      rw [getLsbD_flipBit, getLsbD_colWord, getLsbD_colWord, decide_eq_true hi, Bool.true_and, Bool.true_and, Bool.true_and]
      by_cases hzero : i < 2
      · rw [if_pos hzero, if_pos hzero, decide_eq_false (by omega), Bool.xor_false]
      · rw [if_neg hzero, if_neg hzero]
        by_cases hri : 2 + r = i
        · subst hri
          rw [Nat.add_sub_cancel_left, decide_eq_true rfl]
          exact xor_true_eq_of_ne hwrong
        · rw [decide_eq_false hri, Bool.xor_false]
          by_contra hwrong'
          have := hone r hr (i - 2) (by omega) hwrong hwrong'
          omega
    rw [colCorrect_of_flip (hword ▸ hcode) hr]
    refine ⟨fun r' hr' => ?_, fun r' c' hc' hlt => AgreeAt.flip_of_ne hr hc hlt (.inr hc')⟩
    by_cases hrr : r' = r
    · subst hrr
      exact AgreeAt.flip hwrong hr hc
    · have hright : AgreeAt acc.1 W r' c := by
        by_contra hwrong'
        exact hrr (hone r' hr' r hr hwrong' hwrong)
      exact (AgreeAt.flip_of_ne hr hc hc (.inl hrr)).trans hright

/-! ### The two steps of a pass -/

/-- The first `n` rows restored one after another; the others keep their values. -/
theorem rows_restored {W : Work} {acc : Work × Bool} {n : Nat} (hn : n ≤ 9) (hcode : ∀ r < 9, IsCodeword (rowWord W r))
    (hone : ∀ r < 9, ∀ c < 15, ∀ c' < 15, ¬ AgreeAt acc.1 W r c → ¬ AgreeAt acc.1 W r c' → c = c') :
    (∀ r < n, ∀ c < 15, AgreeAt ((List.range n).foldl (rowCorrect params) acc).1 W r c) ∧
      ∀ r c, n ≤ r → c < 15 → AgreeAt ((List.range n).foldl (rowCorrect params) acc).1 acc.1 r c := by
  induction n with
  | zero => exact ⟨fun r hr => absurd hr (Nat.not_lt_zero r), fun _ _ _ _ => rfl⟩
  | succ n ih =>
    obtain ⟨hdone, hkept⟩ := ih (by omega)
    rw [List.range_succ, List.foldl_append, List.foldl_cons, List.foldl_nil]
    have hrow : ∀ c < 15, AgreeAt acc.1 W n c → AgreeAt ((List.range n).foldl (rowCorrect params) acc).1 W n c :=
      fun c hc h => (hkept n c (Nat.le_refl n) hc).trans h
    obtain ⟨hnow, hrest⟩ := rowCorrect_restores (by omega) (hcode n (by omega)) fun c hc c' hc' hw hw' =>
      hone n (by omega) c hc c' hc' (mt (hrow c hc) hw) (mt (hrow c' hc') hw')
    refine ⟨fun r hr c hc => ?_, fun r c hr hc => (hrest r c (by omega) hc).trans (hkept r c (by omega) hc)⟩
    by_cases hrn : r = n
    · exact hrn ▸ hnow c hc
    · exact (hrest r c hrn hc).trans (hdone r (by omega) c hc)

/-- The first `n` columns restored one after another; the others keep their values. -/
theorem columns_restored {W : Work} {acc : Work × Bool} {n : Nat} (hn : n ≤ 15)
    (hcode : ∀ c < 15, IsCodeword (colWord W c))
    (hone : ∀ c < 15, ∀ r < 13, ∀ r' < 13, ¬ AgreeAt acc.1 W r c → ¬ AgreeAt acc.1 W r' c → r = r') :
    (∀ c < n, ∀ r < 13, AgreeAt ((List.range n).foldl (colCorrect params) acc).1 W r c) ∧
      ∀ r c, n ≤ c → c < 15 → AgreeAt ((List.range n).foldl (colCorrect params) acc).1 acc.1 r c := by
  induction n with
  | zero => exact ⟨fun c hc => absurd hc (Nat.not_lt_zero c), fun _ _ _ _ => rfl⟩
  | succ n ih =>
    obtain ⟨hdone, hkept⟩ := ih (by omega)
    rw [List.range_succ, List.foldl_append, List.foldl_cons, List.foldl_nil]
    have hcol : ∀ r, AgreeAt acc.1 W r n → AgreeAt ((List.range n).foldl (colCorrect params) acc).1 W r n :=
      fun r h => (hkept r n (Nat.le_refl n) (by omega)).trans h
    obtain ⟨hnow, hrest⟩ := colCorrect_restores (by omega) (hcode n (by omega)) fun r hr r' hr' hw hw' =>
      hone n (by omega) r hr r' hr' (mt (hcol r) hw) (mt (hcol r') hw')
    refine ⟨fun c hc r hr => ?_, fun r c hn' hc => (hrest r c (by omega) hc).trans (hkept r c (by omega) hc)⟩
    by_cases hcn : c = n
    · exact hcn ▸ hnow r hr
    · exact (hrest r c hcn (by omega)).trans (hdone c (by omega) r hr)

/-- One pass restores a block from at most one error in every data row and in every column (R147). -/
theorem pass_restores {V W e : Work} (hblock : IsBlock W) (herr : OneErrorPerUnit e)
    (hV : ∀ k < 196, V.getLsbD k = (W.getLsbD k ^^ e.getLsbD k)) :
    ∀ r < 13, ∀ c < 15, AgreeAt (rowsThenColumns V).1 W r c := by
  obtain ⟨hrows, hcols⟩ := hblock
  obtain ⟨hrowErr, hcolErr⟩ := herr
  have herror : ∀ r < 13, ∀ c < 15, ¬ AgreeAt V W r c → e.getLsbD (cell r c) = true := by
    intro r hr c hc hwrong
    unfold AgreeAt at hwrong
    rw [hV _ (cell_lt hr hc)] at hwrong
    exact eq_true_of_xor_ne hwrong
  obtain ⟨hdone, hkept⟩ := rows_restored (acc := (V, false)) (Nat.le_refl 9) hrows fun r hr c hc c' hc' hw hw' =>
    hrowErr r hr c hc c' hc' (herror r (by omega) c hc hw) (herror r (by omega) c' hc' hw')
  have hstill : ∀ r < 13, ∀ c < 15, ¬ AgreeAt ((List.range 9).foldl (rowCorrect params) (V, false)).1 W r c →
      e.getLsbD (cell r c) = true := by
    intro r hr c hc hwrong
    by_cases hdata : r < 9
    · exact absurd (hdone r hdata c hc) hwrong
    · exact herror r hr c hc fun hright => hwrong ((hkept r c (by omega) hc).trans hright)
  obtain ⟨hall, -⟩ := columns_restored (Nat.le_refl 15) hcols fun c hc r hr r' hr' hw hw' =>
    hcolErr c hc r hr r' hr' (hstill r hr c hc hw) (hstill r' hr' c hc hw')
  exact fun r hr c hc => hall c hc r hr

/-- A pass over a block changes nothing and flips no bit (R140). -/
theorem rowsThenColumns_of_block {V : Work} (h : IsBlock V) : rowsThenColumns V = (V, false) := by
  have hfold {step : Work × Bool → Nat → Work × Bool} (l : List Nat) (hstep : ∀ i ∈ l, step (V, false) i = (V, false)) :
      l.foldl step (V, false) = (V, false) := by
    induction l with
    | nil => rfl
    | cons i l ih =>
      rw [List.foldl_cons, hstep i List.mem_cons_self]
      exact ih fun j hj => hstep j (List.mem_cons_of_mem i hj)
  obtain ⟨hrows, hcols⟩ := h
  rw [rowsThenColumns, hfold _ fun r hr => rowCorrect_of_codeword (hrows r (List.mem_range.mp hr)),
    hfold _ fun c hc => colCorrect_of_codeword (hcols c (List.mem_range.mp hc))]

theorem passLoop_of_block {V : Work} (h : IsBlock V) (n : Nat) : passLoop params n V = V := by
  cases n with
  | zero => rfl
  | succ n => simp [passLoop, pass_params, rowsThenColumns_of_block h]

/-- An array that agrees with a block on every cell is a block. -/
theorem isBlock_of_agree {V W : Work} (h : IsBlock W) (hall : ∀ r < 13, ∀ c < 15, AgreeAt V W r c) : IsBlock V := by
  obtain ⟨hrows, hcols⟩ := h
  refine ⟨fun r hr => ?_, fun c hc => ?_⟩
  · have hword : rowWord V r = rowWord W r := ofBits_congr (hall r (by omega))
    exact hword ▸ hrows r hr
  · have hword : colWord V c = colWord W c := ofBits_congr fun i hi => by
      split
      · rfl
      · exact hall (i - 2) (by omega) c hc
    exact hword ▸ hcols c hc

/-- The pass loop leaves the block in every cell (R147). -/
theorem passLoop_restores {V W e : Work} (hblock : IsBlock W) (herr : OneErrorPerUnit e)
    (hV : ∀ k < 196, V.getLsbD k = (W.getLsbD k ^^ e.getLsbD k)) (n : Nat) :
    ∀ r < 13, ∀ c < 15, AgreeAt (passLoop params (n + 1) V) W r c := by
  have hpass := pass_restores hblock herr hV
  obtain ⟨-, h⟩ | ⟨-, h⟩ := passLoop_succ params n V <;> rw [h, pass_params]
  · rwa [passLoop_of_block (isBlock_of_agree hblock hpass)]
  · exact hpass

/-- The information bits are in cells of rows 0–8 (R145). -/
theorem informationBytes_of_agree {V W : Work} (hall : ∀ r < 13, ∀ c < 15, AgreeAt V W r c) :
    informationBytes V = informationBytes W := by
  refine List.map_congr_left fun i hi => ofBits_congr fun j hj => ?_
  have hi' : i < 12 := List.mem_range.mp hi
  exact hall ((8 * i + (7 - j)) / 11) (by omega) ((8 * i + (7 - j)) % 11) (by omega)

end Sys2Proof.Machine
end

section
/-! BPTC_DECODE: the statement of its correction guarantee. -/

open Sys2Proof Sys2Proof.Machine

/-- Settles O27: one pass restores the block, and the passes after it change nothing. -/
theorem bptcCorrectsOneErrorPerUnit : Obligations.BptcCorrectsOneErrorPerUnit := by
  intro s operand W e _ hblock herr hoperand
  have hV : ∀ k < 196, (deinterleave params (codedOperand operand)).getLsbD k = (W.getLsbD k ^^ e.getLsbD k) :=
    fun k hk => (getLsbD_deinterleave_codedOperand operand hk).trans (hoperand k hk)
  rw [exec_bptcDecode, bptc_eq_informationBytes, informationBytes_of_agree (passLoop_restores hblock herr hV 4)]
  rfl

end

section
/-! SUPPORT. The parts of the Link-Control extractor as bytes and numbers (42_link_control.md R191–R197). -/

namespace Sys2Proof.Machine

open Sys2Proof.Config (Params)

/-- The mask of a kind is one byte three times (R193). -/
theorem byteAt_lcMask (kind : LcKind) : ∀ i < 3, byteAt (lcMask params kind) i = match kind with | .vh => 0x96 | .tlc => 0x99 := by
  cases kind <;> decide

/-- The masked bytes of a 12-byte block, read one by one (R193). -/
theorem unmask_eq (kind : LcKind) {out : List Byte} (h : out.length = 12) :
    unmask params kind out =
      out.take 9 ++ (out.drop 9).map (fun b => b ^^^ (match kind with | .vh => 0x96 | .tlc => 0x99 : Byte)) := by
  refine congrArg (out.take 9 ++ ·) (List.ext_getElem (by simp [h]) fun i hi _ => ?_)
  have hi3 : i < 3 := by simpa using hi
  have hlt : 9 + i < out.length := by omega
  rw [List.getElem_map, List.getElem_map, List.getElem_range, List.getElem_drop, byteAt_lcMask kind i hi3, byteAt,
    List.getD_eq_getElem _ _ hlt]

/-- The plausibility test, as numbers (R195). -/
theorem lcPlausible_iff (raw : List Byte) :
    lcPlausible (LcRecord.ofBytes raw) = true ↔
      (raw.getD 0 0).toNat % 64 ≤ 1 ∧
        65536 * (raw.getD 3 0).toNat + 256 * (raw.getD 4 0).toNat + (raw.getD 5 0).toNat ≠ 0 := by
  have hflco : (LcRecord.ofBytes raw).flco.toNat = (raw.getD 0 0).toNat % 64 := toNat_extractLsb'_bottom (byteAt raw 0) 6
  have hdst : (LcRecord.ofBytes raw).dst.toNat =
      65536 * (raw.getD 3 0).toNat + 256 * (raw.getD 4 0).toNat + (raw.getD 5 0).toNat := toNat_threeBytes _ _ _
  rw [← hflco, ← hdst, lcPlausible, Bool.and_eq_true, Bool.or_eq_true, beq_iff_eq, beq_iff_eq, bne_iff_ne]
  refine and_congr ?_ (not_congr ?_)
  · constructor
    · rintro (h | h) <;> rw [h] <;> decide
    · intro h
      bv_omega
  · exact ⟨fun h => by rw [h]; rfl, fun h => BitVec.eq_of_toNat_eq h⟩

/-- The payload of LC_DECODE by the acceptance rule (R195, R197). -/
theorem lcPayload_eq {raw : List Byte} (h : 9 ≤ raw.length) :
    lcPayload ((lcHow params raw).map fun how => (how, LcRecord.ofBytes raw)) =
      if rsValid params raw then 0x01 :: raw.take 9
      else if (raw.getD 0 0).toNat % 64 ≤ 1 ∧
          65536 * (raw.getD 3 0).toNat + 256 * (raw.getD 4 0).toNat + (raw.getD 5 0).toNat ≠ 0 then
        0x02 :: raw.take 9
      else List.replicate 10 0x00 := by
  have hbytes : (LcRecord.ofBytes raw).toBytes = raw.take 9 := (LcRecord.toBytes_ofBytes raw).trans (map_byteAt_range h)
  obtain ⟨hvalid, hhow⟩ | ⟨hvalid, hplausible, hhow⟩ | ⟨hvalid, hplausible, hhow⟩ := lcHow_cases params raw <;> rw [hhow]
  · rw [if_pos hvalid, ← hbytes]
    rfl
  · rw [if_neg (by simp [hvalid]), if_pos ((lcPlausible_iff raw).mp hplausible), ← hbytes]
    rfl
  · rw [if_neg (by simp [hvalid]), if_neg (mt (lcPlausible_iff raw).mpr (by simp [hplausible]))]
    rfl

end Sys2Proof.Machine
end

section
/-! LC_DECODE: the statement of its acceptance rule. -/

open Sys2Proof Sys2Proof.Machine

/-- Settles O33: the coded block, the masked bytes, then the rule on them. -/
theorem lcDecodeAcceptanceRule : Obligations.LcDecodeAcceptanceRule := by
  intro s burst kind _ coded out raw hcoded hout hraw
  have hunmask : unmask params kind out = raw := by
    refine (unmask_eq kind (by rw [hout, bptc_length])).trans ?_
    subst hraw
    cases kind <;> rfl
  have hraw' : lcRaw params (burstOperand burst) kind = raw := by
    rw [lcRaw, ← eq_codedOfBurst_of_stringBit hcoded, ← hout, hunmask]
  have hlen : raw.length = 12 := hraw' ▸ lcRaw_length params (burstOperand burst) kind
  rw [exec_lcCommand, lcx, hraw', lcPayload_eq (by omega)]

end

section
/-! SUPPORT. GF(2^8) by doubling: sums of bytes, the shift-and-add product and its laws (41_parity_rs.md R171).

Every nonzero byte is a power of α, so the product of two is the power of the summed exponents; associativity,
commutativity and the absence of zero divisors follow from that. -/

namespace Sys2Proof.Machine

open Sys2Proof.Config (Params)

/-! ### Sums -/

/-- The sum in GF(2^8) of `f` over a list. -/
def byteSum (l : List Nat) (f : Nat → Byte) : Byte := l.foldr (fun i acc => f i ^^^ acc) 0

@[simp] theorem byteSum_nil (f : Nat → Byte) : byteSum [] f = 0 := rfl

@[simp] theorem byteSum_cons (i : Nat) (l : List Nat) (f : Nat → Byte) : byteSum (i :: l) f = f i ^^^ byteSum l f := rfl

theorem byte_xor_self (a : Byte) : a ^^^ a = 0 := BitVec.xor_self

/-- The four summands of two sums, exchanged. -/
theorem xor_xor_xor_comm (a b c d : Byte) : (a ^^^ b) ^^^ (c ^^^ d) = (a ^^^ c) ^^^ (b ^^^ d) := by
  rw [BitVec.xor_assoc, BitVec.xor_assoc, ← BitVec.xor_assoc b c d, BitVec.xor_comm b c, BitVec.xor_assoc c b d]

theorem byteSum_xor (l : List Nat) (f g : Nat → Byte) :
    byteSum l (fun i => f i ^^^ g i) = byteSum l f ^^^ byteSum l g := by
  induction l with
  | nil => simp
  | cons i l ih => rw [byteSum_cons, byteSum_cons, byteSum_cons, ih, xor_xor_xor_comm]

theorem byteSum_congr {l : List Nat} {f g : Nat → Byte} (h : ∀ i ∈ l, f i = g i) : byteSum l f = byteSum l g := by
  induction l with
  | nil => rfl
  | cons i l ih =>
    rw [byteSum_cons, byteSum_cons, h i List.mem_cons_self, ih fun j hj => h j (List.mem_cons_of_mem i hj)]

/-- Additive functions go through sums. -/
theorem byteSum_map {φ : Byte → Byte} (hzero : φ 0 = 0) (hadd : ∀ a b, φ (a ^^^ b) = φ a ^^^ φ b) (l : List Nat)
    (f : Nat → Byte) : φ (byteSum l f) = byteSum l fun i => φ (f i) := by
  induction l with
  | nil => exact hzero
  | cons i l ih => rw [byteSum_cons, byteSum_cons, hadd, ih]

/-- A running sum is the start and the sum. -/
theorem foldl_xor_eq_byteSum (l : List Nat) (f : Nat → Byte) (acc : Byte) :
    l.foldl (fun acc i => acc ^^^ f i) acc = acc ^^^ byteSum l f := by
  induction l generalizing acc with
  | nil => simp
  | cons i l ih => rw [List.foldl_cons, ih, byteSum_cons, BitVec.xor_assoc]

theorem byteSum_append (l l' : List Nat) (f : Nat → Byte) : byteSum (l ++ l') f = byteSum l f ^^^ byteSum l' f := by
  induction l with
  | nil => simp
  | cons i l ih => rw [List.cons_append, byteSum_cons, byteSum_cons, ih, BitVec.xor_assoc]

/-- Terms that are 0 may be left out of a sum. -/
theorem byteSum_filter {l : List Nat} {f : Nat → Byte} {p : Nat → Bool} (h : ∀ i ∈ l, p i = false → f i = 0) :
    byteSum (l.filter p) f = byteSum l f := by
  induction l with
  | nil => rfl
  | cons i l ih =>
    have hrest := ih fun j hj => h j (List.mem_cons_of_mem i hj)
    cases hp : p i with
    | true => rw [List.filter_cons_of_pos hp, byteSum_cons, byteSum_cons, hrest]
    | false =>
      rw [List.filter_cons_of_neg (by simp [hp]), byteSum_cons, hrest, h i List.mem_cons_self hp]
      exact BitVec.zero_xor.symm

/-! ### Doubling -/

/-- Doubling is a shift and, for a top bit, the reduction (R171). -/
theorem fieldDouble_eq_xor (a : Byte) : fieldDouble a = (a <<< 1) ^^^ (if a.getLsbD 7 then 0x1D else 0) := by
  unfold fieldDouble
  split
  · rfl
  · exact BitVec.xor_zero.symm

theorem fieldDouble_xor (a b : Byte) : fieldDouble (a ^^^ b) = fieldDouble a ^^^ fieldDouble b := by
  have hreduce : (if a.getLsbD 7 ^^ b.getLsbD 7 then 0x1D else 0 : Byte) =
      (if a.getLsbD 7 then 0x1D else 0) ^^^ (if b.getLsbD 7 then 0x1D else 0) := by
    cases a.getLsbD 7 <;> cases b.getLsbD 7 <;> rfl
  rw [fieldDouble_eq_xor, fieldDouble_eq_xor, fieldDouble_eq_xor, BitVec.getLsbD_xor, BitVec.shiftLeft_xor_distrib, hreduce,
    xor_xor_xor_comm]

theorem fieldShift_xor (a b : Byte) (k : Nat) : fieldShift (a ^^^ b) k = fieldShift a k ^^^ fieldShift b k := by
  induction k with
  | zero => rfl
  | succ k ih => rw [fieldShift, ih, fieldDouble_xor]; rfl

theorem fieldShift_zero (k : Nat) : fieldShift 0 k = 0 := by
  induction k with
  | zero => rfl
  | succ k ih => rw [fieldShift, ih]; rfl

theorem fieldShift_double (a : Byte) (k : Nat) : fieldShift (fieldDouble a) k = fieldDouble (fieldShift a k) := by
  induction k with
  | zero => rfl
  | succ k ih => rw [fieldShift, ih]; rfl

theorem fieldShift_add (a : Byte) (j k : Nat) : fieldShift (fieldShift a j) k = fieldShift a (j + k) := by
  induction k with
  | zero => rfl
  | succ k ih => rw [fieldShift, ih]; rfl

/-! ### The product -/

/-- The product as the sum of the shifts of `a` over the bits of `b` (R171). -/
theorem fieldMul_eq_byteSum (a b : Byte) :
    fieldMul a b = byteSum (List.range 8) fun k => if b.getLsbD k then fieldShift a k else 0 := by
  have hstep : (fun acc k => if b.getLsbD k then acc ^^^ fieldShift a k else acc) =
      fun acc k => acc ^^^ if b.getLsbD k then fieldShift a k else 0 := by
    funext acc k
    split
    · rfl
    · exact BitVec.xor_zero.symm
  rw [fieldMul, hstep, foldl_xor_eq_byteSum]
  exact BitVec.zero_xor

theorem fieldMul_xor_left (a a' b : Byte) : fieldMul (a ^^^ a') b = fieldMul a b ^^^ fieldMul a' b := by
  rw [fieldMul_eq_byteSum, fieldMul_eq_byteSum, fieldMul_eq_byteSum, ← byteSum_xor]
  refine byteSum_congr fun k _ => ?_
  split
  · exact fieldShift_xor a a' k
  · rfl

theorem fieldMul_zero_left (b : Byte) : fieldMul 0 b = 0 := by
  have h := fieldMul_xor_left 0 0 b
  rwa [BitVec.xor_self, BitVec.xor_self] at h

/-- Doubling a factor doubles the product. -/
theorem fieldMul_double_left (a b : Byte) : fieldMul (fieldDouble a) b = fieldDouble (fieldMul a b) := by
  rw [fieldMul_eq_byteSum, fieldMul_eq_byteSum, byteSum_map rfl fieldDouble_xor]
  refine byteSum_congr fun k _ => ?_
  split
  · exact fieldShift_double a k
  · rfl

theorem fieldMul_shift_left (a b : Byte) (k : Nat) : fieldMul (fieldShift a k) b = fieldShift (fieldMul a b) k := by
  induction k with
  | zero => rfl
  | succ k ih => rw [fieldShift, fieldMul_double_left, ih]; rfl

/-- A byte is the sum of its bits' powers of x. -/
theorem fieldMul_one_left : ∀ b : Byte, fieldMul 1 b = b := by
  decide +kernel

/-- A power of α shifts the other factor. -/
theorem fieldMul_alphaPower_left (i : Nat) (b : Byte) : fieldMul (alphaPower i) b = fieldShift b i := by
  rw [alphaPower, fieldMul_shift_left, fieldMul_one_left]

theorem fieldMul_alphaPower (i j : Nat) : fieldMul (alphaPower i) (alphaPower j) = alphaPower (i + j) := by
  rw [fieldMul_alphaPower_left, alphaPower, fieldShift_add, Nat.add_comm j i]
  rfl

theorem fieldMul_zero_right (a : Byte) : fieldMul a 0 = 0 := by
  rw [fieldMul_eq_byteSum]
  exact (byteSum_congr fun k _ => by simp).trans (by decide : byteSum (List.range 8) (fun _ => 0) = 0)

/-! ### The tables -/

theorem timesAlpha_params : ∀ a : Byte, timesAlpha params a = fieldDouble a := by
  decide +kernel

theorem iterate_timesAlpha (a : Byte) (n : Nat) : (timesAlpha params)^[n] a = fieldShift a n := by
  induction n with
  | zero => rfl
  | succ n ih => rw [Function.iterate_succ_apply', ih, timesAlpha_params]; rfl

/-- α has order 255 (R172). -/
theorem alphaPower_period : alphaPower 255 = 1 := by
  decide +kernel

theorem alphaPower_add_period (i : Nat) (m : Nat) : alphaPower (i + 255 * m) = alphaPower i := by
  induction m with
  | zero => rfl
  | succ m ih =>
    rw [Nat.mul_succ, ← Nat.add_assoc, ← fieldMul_alphaPower, ih, alphaPower_period, alphaPower,
      fieldMul_shift_left, fieldMul_one_left]

/-- `EXP` is the powers of α (R172). -/
theorem gexp_params (i : Nat) : gexp params i = alphaPower i := by
  rw [gexp_eq, iterate_timesAlpha, ← Nat.mod_add_div i 255, alphaPower_add_period, Nat.add_mul_mod_self_left, Nat.mod_mod]
  rfl

/-- Every nonzero byte is in the table (R172). -/
theorem mem_expTable_of_ne_zero : ∀ a : Byte, a ≠ 0 → a ∈ expTable params := by
  decide +kernel

/-- Every nonzero byte is a power of α. -/
theorem exists_alphaPower {a : Byte} (h : a ≠ 0) : alphaPower (glog params a) = a := by
  rw [← gexp_params]
  exact gexp_glog params (mem_expTable_of_ne_zero a h)

theorem fieldDouble_ne_zero : ∀ a : Byte, a ≠ 0 → fieldDouble a ≠ 0 := by
  decide +kernel

theorem alphaPower_ne_zero (i : Nat) : alphaPower i ≠ 0 := by
  induction i with
  | zero => decide
  | succ i ih => exact fieldDouble_ne_zero _ ih

/-- A law of powers of α is a law of bytes once it holds of 0. -/
theorem byte_cases (a : Byte) : a = 0 ∨ ∃ i, a = alphaPower i := by
  by_cases h : a = 0
  · exact .inl h
  · exact .inr ⟨_, (exists_alphaPower h).symm⟩

theorem fieldMul_comm (a b : Byte) : fieldMul a b = fieldMul b a := by
  obtain rfl | ⟨i, rfl⟩ := byte_cases a
  · rw [fieldMul_zero_left, fieldMul_zero_right]
  · obtain rfl | ⟨j, rfl⟩ := byte_cases b
    · rw [fieldMul_zero_left, fieldMul_zero_right]
    · rw [fieldMul_alphaPower, fieldMul_alphaPower, Nat.add_comm]

theorem fieldMul_assoc (a b c : Byte) : fieldMul (fieldMul a b) c = fieldMul a (fieldMul b c) := by
  obtain rfl | ⟨i, rfl⟩ := byte_cases a
  · rw [fieldMul_zero_left, fieldMul_zero_left, fieldMul_zero_left]
  · rw [fieldMul_alphaPower_left, fieldMul_alphaPower_left, fieldMul_shift_left]

theorem fieldMul_xor_right (a b b' : Byte) : fieldMul a (b ^^^ b') = fieldMul a b ^^^ fieldMul a b' := by
  rw [fieldMul_comm, fieldMul_xor_left, fieldMul_comm b, fieldMul_comm b']

theorem eq_zero_of_fieldMul_eq_zero {a b : Byte} (h : fieldMul a b = 0) : a = 0 ∨ b = 0 := by
  obtain rfl | ⟨i, rfl⟩ := byte_cases a
  · exact .inl rfl
  · obtain rfl | ⟨j, rfl⟩ := byte_cases b
    · exact .inr rfl
    · rw [fieldMul_alphaPower] at h
      exact absurd h (alphaPower_ne_zero _)

/-- The product through the tables is the product (R172). -/
theorem gmul_params (a b : Byte) : gmul params a b = fieldMul a b := by
  by_cases ha : a = 0
  · rw [ha, gmul_zero_left, fieldMul_zero_left]
  · by_cases hb : b = 0
    · rw [hb, gmul_zero_right, fieldMul_zero_right]
    · rw [gmul_of_ne_zero params ha hb, gexp_params, ← fieldMul_alphaPower, exists_alphaPower ha, exists_alphaPower hb]

end Sys2Proof.Machine
end

section
/-! SUPPORT. The syndromes of a codeword as values of its polynomial, and the code's minimum distance
(41_parity_rs.md R173–R177). -/

namespace Sys2Proof.Machine

/-! ### Syndromes -/

/-- The syndrome at `α^j` over codewords of `n` bytes. -/
def syndromeSum (n : Nat) (codeword : List Byte) (j : Nat) : Byte :=
  byteSum (List.range n) fun i => fieldMul (codeword.getD i 0) (alphaPower (j * (n - 1 - i)))

/-- The syndrome of R174 with the default `RS_B` 0. -/
theorem rsSyndrome_eq_syndromeSum (codeword : List Byte) (j : Nat) :
    rsSyndrome params codeword j = syndromeSum 12 codeword j := by
  rw [rsSyndrome, foldl_xor_eq_byteSum]
  refine BitVec.zero_xor.trans (byteSum_congr fun i _ => ?_)
  rw [gmul_params, gexp_params, show params.rsB = 0 from rfl, Nat.zero_add]
  rfl

/-- One Horner step appends the lowest coefficient (R174). -/
theorem fieldEval_append (point : Byte) (codeword : List Byte) (c : Byte) :
    fieldEval point (codeword ++ [c]) = fieldMul (fieldEval point codeword) point ^^^ c := by
  simp [fieldEval]

/-- Multiplying a sum by a factor. -/
theorem fieldMul_byteSum_left (l : List Nat) (f : Nat → Byte) (b : Byte) :
    fieldMul (byteSum l f) b = byteSum l fun i => fieldMul (f i) b :=
  byteSum_map (φ := (fieldMul · b)) (fieldMul_zero_left b) (fun a a' => fieldMul_xor_left a a' b) l f

/-- Horner's scheme at `α^j` is the syndrome sum (R174). -/
theorem fieldEval_alphaPower (codeword : List Byte) (j : Nat) :
    fieldEval (alphaPower j) codeword = syndromeSum codeword.length codeword j := by
  induction codeword using List.reverseRecOn with
  | nil => rfl
  | append_singleton codeword c ih =>
    rw [fieldEval_append, ih, syndromeSum, syndromeSum, fieldMul_byteSum_left, List.length_append, List.length_singleton,
      List.range_succ, byteSum_append]
    refine congrArg₂ (· ^^^ ·) (byteSum_congr fun i hi => ?_) ?_
    · have hlt : i < codeword.length := List.mem_range.mp hi
      rw [fieldMul_assoc, fieldMul_alphaPower, List.getD_append _ _ _ _ hlt, ← Nat.mul_succ,
        show Nat.succ (codeword.length - 1 - i) = codeword.length + 1 - 1 - i by omega]
    · rw [byteSum_cons, byteSum_nil, Nat.add_sub_cancel, Nat.sub_self, Nat.mul_zero,
        List.getD_append_right _ _ _ _ (Nat.le_refl _), Nat.sub_self]
      have hone : fieldMul c (alphaPower 0) = c := (fieldMul_comm c _).trans (fieldMul_one_left c)
      exact (hone.symm.trans BitVec.xor_zero.symm)

/-! ### The minimum distance -/

/-- The powers of the 12 positions are distinct (R174). -/
theorem position_power_ne : ∀ i < 12, ∀ i' < 12, alphaPower (11 - i) = alphaPower (11 - i') → i = i' := by
  decide +kernel

/-- The term of an error `d i` at position `i` in the syndrome at `α^j` (R174). -/
def errorTerm (d : Nat → Byte) (j i : Nat) : Byte := fieldMul (d i) (alphaPower (j * (11 - i)))

/-- Eliminating a position `i₀`: the next syndrome's term and `x₀` times this one's are one term of an error scaled by the
difference of the two positions' powers. -/
theorem errorTerm_eliminate (d : Nat → Byte) (x₀ : Byte) (j i : Nat) :
    errorTerm (fun i => fieldMul (d i) (alphaPower (11 - i) ^^^ x₀)) j i =
      errorTerm d (j + 1) i ^^^ fieldMul (errorTerm d j i) x₀ := by
  unfold errorTerm
  rw [fieldMul_assoc, fieldMul_xor_left, fieldMul_alphaPower, fieldMul_xor_right, fieldMul_comm x₀, ← fieldMul_assoc,
    Nat.add_mul, Nat.one_mul, Nat.add_comm (11 - i)]

/-- A sum that vanishes equals its first term in the rest. -/
theorem byteSum_eq_of_cons_eq_zero {i : Nat} {l : List Nat} {f : Nat → Byte} (h : byteSum (i :: l) f = 0) :
    byteSum l f = f i :=
  (BitVec.xor_eq_zero_iff.mp h).symm

/-- Errors at as many positions as there are vanishing syndromes are none: eliminating the first position leaves sums of
the same kind over the others (R177). -/
theorem errors_eq_zero {l : List Nat} (hnodup : l.Nodup) (hlt : ∀ i ∈ l, i < 12) {d : Nat → Byte}
    (hsum : ∀ j < l.length, byteSum l (errorTerm d j) = 0) : ∀ i ∈ l, d i = 0 := by
  induction l generalizing d with
  | nil => simp
  | cons i₀ l ih =>
    obtain ⟨hnotMem, hnodup'⟩ := List.nodup_cons.mp hnodup
    have hlt' : ∀ i ∈ l, i < 12 := fun i hi => hlt i (List.mem_cons_of_mem i₀ hi)
    have hrest : ∀ i ∈ l, fieldMul (d i) (alphaPower (11 - i) ^^^ alphaPower (11 - i₀)) = 0 := by
      refine ih hnodup' hlt' fun j hj => ?_
      have hnow := byteSum_eq_of_cons_eq_zero (hsum j (Nat.lt_succ_of_lt hj))
      have hnext := byteSum_eq_of_cons_eq_zero (hsum (j + 1) (Nat.succ_lt_succ hj))
      calc byteSum l (errorTerm (fun i => fieldMul (d i) (alphaPower (11 - i) ^^^ alphaPower (11 - i₀))) j)
        _ = byteSum l (fun i => errorTerm d (j + 1) i ^^^ fieldMul (errorTerm d j i) (alphaPower (11 - i₀))) :=
          byteSum_congr fun i _ => errorTerm_eliminate d _ j i
        _ = byteSum l (errorTerm d (j + 1)) ^^^ fieldMul (byteSum l (errorTerm d j)) (alphaPower (11 - i₀)) := by
          rw [byteSum_xor, fieldMul_byteSum_left]
        _ = errorTerm (fun i => fieldMul (d i) (alphaPower (11 - i) ^^^ alphaPower (11 - i₀))) j i₀ := by
          rw [hnow, hnext, errorTerm_eliminate]
        _ = 0 := by rw [errorTerm, byte_xor_self, fieldMul_zero_right, fieldMul_zero_left]
    have hzero : ∀ i ∈ l, d i = 0 := by
      intro i hi
      obtain h | h := eq_zero_of_fieldMul_eq_zero (hrest i hi)
      · exact h
      · have hsame := position_power_ne i (hlt' i hi) i₀ (hlt i₀ List.mem_cons_self) (BitVec.xor_eq_zero_iff.mp h)
        exact absurd (hsame ▸ hi) hnotMem
    have hfirst : d i₀ = 0 := by
      have hterms : byteSum l (errorTerm d 0) = byteSum l fun _ => 0 :=
        byteSum_congr fun i hi => by rw [errorTerm, hzero i hi, fieldMul_zero_left]
      have hnone : byteSum l (fun _ => 0) = 0 := (byteSum_filter (p := fun _ => false) fun _ _ _ => rfl).symm.trans (by simp)
      have hterm : errorTerm d 0 i₀ = 0 :=
        (byteSum_eq_of_cons_eq_zero (hsum 0 (Nat.zero_lt_succ _))).symm.trans (hterms.trans hnone)
      rw [errorTerm, Nat.zero_mul] at hterm
      exact (eq_zero_of_fieldMul_eq_zero hterm).resolve_right (alphaPower_ne_zero 0)
    intro i hi
    obtain rfl | hi := List.mem_cons.mp hi
    · exact hfirst
    · exact hzero i hi

/-- The syndromes of the difference of two codewords are the differences of their syndromes (R174). -/
theorem byteSum_errorTerm_difference (cw cw' : List Byte) (j : Nat) :
    byteSum (List.range 12) (errorTerm (fun i => cw'.getD i 0 ^^^ cw.getD i 0) j) =
      rsSyndrome params cw' j ^^^ rsSyndrome params cw j := by
  rw [rsSyndrome_eq_syndromeSum, rsSyndrome_eq_syndromeSum, syndromeSum, syndromeSum, ← byteSum_xor]
  exact byteSum_congr fun i _ => fieldMul_xor_left _ _ _

/-- Two valid codewords that differ in at most three positions are equal (R177). -/
theorem getD_eq_of_rsValid {cw cw' : List Byte} (hvalid : rsValid params cw = true) (hvalid' : rsValid params cw' = true)
    (hfew : ((List.range 12).filter fun i => cw'.getD i 0 != cw.getD i 0).length ≤ 3) :
    ∀ i < 12, cw'.getD i 0 = cw.getD i 0 := by
  obtain ⟨h0, h1, h2⟩ := (rsValid_iff params cw).mp hvalid
  obtain ⟨h0', h1', h2'⟩ := (rsValid_iff params cw').mp hvalid'
  have hsum : ∀ j < 3, byteSum (List.range 12) (errorTerm (fun i => cw'.getD i 0 ^^^ cw.getD i 0) j) = 0 := by
    intro j hj
    rw [byteSum_errorTerm_difference]
    match j with
    | 0 => rw [h0, h0', BitVec.xor_self]; rfl
    | 1 => rw [h1, h1', BitVec.xor_self]; rfl
    | 2 => rw [h2, h2', BitVec.xor_self]; rfl
  have hdiff := errors_eq_zero (d := fun i => cw'.getD i 0 ^^^ cw.getD i 0)
    (List.nodup_range.filter fun i => cw'.getD i 0 != cw.getD i 0)
    (fun i hi => List.mem_range.mp (List.mem_of_mem_filter hi)) fun j hj => by
      rw [byteSum_filter, hsum j (by omega)]
      intro i _ hsame
      have heq : cw'.getD i 0 = cw.getD i 0 := by simpa using hsame
      rw [errorTerm, heq, BitVec.xor_self]
      exact fieldMul_zero_left _
  intro i hi
  by_contra hne
  have hmem : i ∈ (List.range 12).filter fun i => cw'.getD i 0 != cw.getD i 0 :=
    List.mem_filter.mpr ⟨List.mem_range.mpr hi, by simpa using hne⟩
  exact hne (BitVec.xor_eq_zero_iff.mp (hdiff i hmem))

/-- RS_CHECK appends its answer and writes nothing else (R175). -/
theorem exec_rsCheck (codeword : List Byte) (s : State) :
    exec (.rsCheck codeword) s = .next
      { s with responses := s.responses ++ [okResponse [if rsValid params codeword then 0x01 else 0x00]] } := rfl

/-- A codeword of 12 bytes is valid exactly when its polynomial vanishes at the three points (R173–R175). -/
theorem rsValid_iff_fieldEval {cw : List Byte} (hlen : cw.length = 12) :
    rsValid params cw = true ↔
      fieldEval (alphaPower 0) cw = 0 ∧ fieldEval (alphaPower 1) cw = 0 ∧ fieldEval (alphaPower 2) cw = 0 := by
  rw [rsValid_iff]
  simp only [rsSyndrome_eq_syndromeSum, fieldEval_alphaPower, hlen]

/-- Another string of 12 bytes that differs in at most three positions is answered 0x00 (R177). -/
theorem exec_rsCheck_of_few_errors {cw cw' : List Byte} (s : State) (hlen : cw.length = 12) (hlen' : cw'.length = 12)
    (hvalid : rsValid params cw = true) (hne : cw' ≠ cw)
    (hfew : ((List.range 12).filter fun i => cw'.getD i 0 != cw.getD i 0).length ≤ 3) :
    exec (.rsCheck cw') s = .next { s with responses := s.responses ++ [okResponse [0x00]] } := by
  have hinvalid : rsValid params cw' = false := by
    rw [← Bool.not_eq_true]
    intro hvalid'
    refine hne (List.ext_getElem (hlen'.trans hlen.symm) fun i hi' hi => ?_)
    have hbyte := getD_eq_of_rsValid hvalid hvalid' hfew i (hlen ▸ hi)
    rwa [List.getD_eq_getElem _ _ hi', List.getD_eq_getElem _ _ hi] at hbyte
  rw [exec_rsCheck, hinvalid]
  rfl

end Sys2Proof.Machine
end

section
/-! RS_CHECK: the statements about its arithmetic, its answer and the errors it detects. -/

open Sys2Proof Sys2Proof.Machine

/-- Settles O29: every nonzero byte is a power of α, and the product of two adds their exponents. -/
theorem tableProductIsFieldProduct : Obligations.TableProductIsFieldProduct := ⟨gmul_params, gexp_params⟩

/-- Settles O30: each syndrome is Horner's value at its point. -/
theorem rsCheckEvaluatesThePolynomial : Obligations.RsCheckEvaluatesThePolynomial := by
  intro s cw hlen
  rw [exec_rsCheck]
  by_cases hvalid : rsValid params cw = true
  · rw [if_pos hvalid, if_pos ((rsValid_iff_fieldEval hlen).mp hvalid)]
  · rw [if_neg hvalid, if_neg (mt (rsValid_iff_fieldEval hlen).mpr hvalid)]

/-- Settles O32: two valid codewords differ in more than three positions. -/
theorem rsRejectsUpToThreeWrongBytes : Obligations.RsRejectsUpToThreeWrongBytes :=
  fun s _ _ hlen hlen' hvalid hne hfew => exec_rsCheck_of_few_errors s hlen hlen' hvalid hne hfew

/-- Settles O31: one changed byte is at most three. -/
theorem rsRejectsOneWrongByte : Obligations.RsRejectsOneWrongByte := by
  intro s cw i x hlen hi hvalid hchanged
  have hne : cw.set i x ≠ cw := fun h => hchanged (by
    rw [← h]
    simp [hlen, hi])
  have honly : (List.range 12).filter (fun k => (cw.set i x).getD k 0 != cw.getD k 0) ⊆ [i] := by
    intro k hk
    by_contra hki
    have hsame : (cw.set i x).getD k 0 = cw.getD k 0 := by
      rw [List.getD_eq_getElem?_getD, List.getElem?_set_ne (by simpa [eq_comm] using hki), List.getD_eq_getElem?_getD]
    obtain ⟨-, hdiffers⟩ := List.mem_filter.mp hk
    rw [hsame, bne_self_eq_false] at hdiffers
    cases hdiffers
  have hone : ((List.range 12).filter fun k => (cw.set i x).getD k 0 != cw.getD k 0).length ≤ 1 :=
    (List.nodup_range.filter _).subperm honly |>.length_le
  exact exec_rsCheck_of_few_errors s hlen (by simpa using hlen) hvalid hne (by omega)

end

section
/-! SUPPORT. Counting the misses of a call over a run of bits (43_slot_receiver.md R230, R241, R243).

A slot's period ends once in every 576 bits, so `576 * MISS`, plus the bits since the last period end, grows by one with
every bit: the age of the call. The call is lost when its age reaches 576 times the threshold. -/

namespace Sys2Proof.Machine

open Sys2Proof.Config (Params)

/-! ### The events of a completion, counted -/

/-- `t` has the events of `s`, those of a completion of slot `k`, and `δ` times `LOST(k)`. -/
def AppendsLost (k : SlotId) (δ : Nat) (s t : State) : Prop :=
  ∃ es, FrameEvents k es ∧ t.events = s.events ++ es ++ List.replicate δ (.lost k)

theorem FrameEvents.nil (k : SlotId) : FrameEvents k [] := .inl rfl

/-- No event before the loss check is a `LOST`. -/
theorem FrameEvents.lost_notMem {k : SlotId} {es : List Event} (h : FrameEvents k es) (j : SlotId) : .lost j ∉ es := by
  obtain rfl | ⟨type, payload, lcs, rfl, rfl | ⟨kind, how, record, rfl⟩⟩ := h <;> simp

theorem FrameEvents.lostCount_eq_zero {k : SlotId} {es : List Event} (h : FrameEvents k es) : lostCount es = 0 := by
  obtain rfl | ⟨type, payload, lcs, rfl, rfl | ⟨kind, how, record, rfl⟩⟩ := h <;> rfl

theorem lostCount_append (es fs : List Event) : lostCount (es ++ fs) = lostCount es + lostCount fs := by
  simp [lostCount]

theorem lostCount_replicate (δ : Nat) (k : SlotId) : lostCount (List.replicate δ (.lost k)) = δ := by
  induction δ with
  | zero => rfl
  | succ δ ih => rw [List.replicate_succ', lostCount_append, ih]; rfl

theorem AppendsLost.lostCount {k : SlotId} {δ : Nat} {s t : State} (h : AppendsLost k δ s t) :
    lostCount t.events = lostCount s.events + δ := by
  obtain ⟨es, hes, ht⟩ := h
  rw [ht, lostCount_append, lostCount_append, hes.lostCount_eq_zero, lostCount_replicate, Nat.add_zero]

theorem AppendsLost.count_self {k : SlotId} {δ : Nat} {s t : State} (h : AppendsLost k δ s t) :
    t.events.count (.lost k) = s.events.count (.lost k) + δ := by
  obtain ⟨es, hes, ht⟩ := h
  rw [ht, List.count_append, List.count_append, List.count_eq_zero.mpr (hes.lost_notMem k), List.count_replicate_self,
    Nat.add_zero]

theorem AppendsLost.count_other {k j : SlotId} {δ : Nat} {s t : State} (h : AppendsLost k δ s t) (hj : j ≠ k) :
    t.events.count (.lost j) = s.events.count (.lost j) := by
  obtain ⟨es, hes, ht⟩ := h
  have hne : Event.lost j ∉ List.replicate δ (.lost k) := by
    rw [List.mem_replicate, Event.lost.injEq]
    exact fun hmem => hj hmem.2
  rw [ht, List.count_append, List.count_append, List.count_eq_zero.mpr (hes.lost_notMem j), List.count_eq_zero.mpr hne,
    Nat.add_zero]

theorem AppendsLost.refl (k : SlotId) (s : State) : AppendsLost k 0 s s := ⟨[], FrameEvents.nil k, by simp⟩

/-- Every completion appends its events and at most one `LOST`. -/
theorem exists_appendsLost (k : SlotId) (s : State) : ∃ δ, AppendsLost k δ s (completeIfDue params k s) := by
  by_cases hdue : (s.slot k).endPos = some s.ptr
  · rw [completeIfDue_of_eq params hdue]
    obtain ⟨es, hes, ⟨r, h⟩ | h⟩ := complete_cases params k s
    · exact ⟨0, es, hes, by rw [h]; simp⟩
    · exact ⟨1, es, hes, by rw [h]; simp⟩
  · rw [completeIfDue_of_ne params hdue]
    exact ⟨0, .refl k s⟩

/-- A completion that keeps the call appends no `LOST`. -/
theorem appendsLost_of_kept {k : SlotId} {s t : State} {es : List Event} {r : SlotRec} (hes : FrameEvents k es)
    (h : t = s.withCompletion k es r) : AppendsLost k 0 s t :=
  ⟨es, hes, by rw [h]; simp⟩

@[simp] theorem State.clearIfDuplex_slot (s : State) (k : SlotId) : s.clearIfDuplex.slot k = s.slot k := by
  unfold State.clearIfDuplex
  split
  · exact State.clearBits_slot s k
  · rfl

/-! ### Positions in time -/

/-- How many bits are received before the one at position `e`, from cursor `p` on. -/
def bitsUntil (p e : BitVec 10) : Nat := (e.toNat + 576 - p.toNat) % 576

theorem bitsUntil_lt (p e : BitVec 10) : bitsUntil p e < 576 := Nat.mod_lt _ (by decide)

theorem bitsUntil_self (p : BitVec 10) : bitsUntil p p = 0 := by
  unfold bitsUntil
  omega

/-- The bit at position `e` itself starts the next 576. -/
theorem bitsUntil_next_self (p : BitVec 10) : bitsUntil (position (p.toNat + 1)) p = 575 := by
  have hpos := position_toNat (p.toNat + 1)
  unfold bitsUntil
  omega

/-- Any other bit is one fewer to wait for. -/
theorem bitsUntil_next {p e : BitVec 10} (hp : p.toNat < 576) (he : e.toNat < 576) (hne : e ≠ p) :
    bitsUntil (position (p.toNat + 1)) e + 1 = bitsUntil p e := by
  have hne' : e.toNat ≠ p.toNat := fun h => hne (BitVec.eq_of_toNat_eq h)
  unfold bitsUntil
  rw [position_toNat]
  omega

/-- A record armed for position `e` whose age at cursor `p` is `age`, with `m` whole periods behind it. -/
def ArmedAt (p : BitVec 10) (age m : Nat) (r : SlotRec) : Prop :=
  ∃ e : BitVec 10, e.toNat < 576 ∧ r.endPos = some e ∧ age + bitsUntil p e = 576 * m + 575

/-- Before its period's end a record only grows older. -/
theorem ArmedAt.next {p : BitVec 10} {age m : Nat} {r : SlotRec} (h : ArmedAt p age m r) (hp : p.toNat < 576)
    (hdue : r.endPos ≠ some p) : ArmedAt (position (p.toNat + 1)) (age + 1) m r := by
  obtain ⟨e, he, hend, hage⟩ := h
  have hne : e ≠ p := fun hep => hdue (hep ▸ hend)
  have hnext := bitsUntil_next hp he hne
  exact ⟨e, he, hend, by omega⟩

/-- At its period's end a record has another whole period behind it. -/
theorem ArmedAt.next_of_due {p : BitVec 10} {age m : Nat} {r r' : SlotRec} (h : ArmedAt p age m r) (hp : p.toNat < 576)
    (hdue : r.endPos = some p) (hend' : r'.endPos = r.endPos) :
    age + 1 = 576 * (m + 1) ∧ ArmedAt (position (p.toNat + 1)) (age + 1) (m + 1) r' := by
  obtain ⟨e, he, hend, hage⟩ := h
  obtain rfl : e = p := Option.some.inj (hend.symm.trans hdue)
  rw [bitsUntil_self e] at hage
  have hnext := bitsUntil_next_self e
  exact ⟨by omega, e, he, hend'.trans hdue, by omega⟩

/-! ### One record over one bit -/

/-- A call with no match pending whose age is `age`: its `MISS` is the whole periods in it. -/
def CallOfAge (p : BitVec 10) (age : Nat) (r : SlotRec) : Prop :=
  r.st ≠ .idle ∧ r.seen = false ∧ ArmedAt p age r.miss.toNat r

/-- The record after a miss that loses no call: `MISS` and `N` change (R240, R241). -/
theorem missed_record (r : SlotRec) (hst : r.st ≠ .idle) :
    ∃ n, SlotRec.countMiss r.st (SlotRec.predicted r.st r) = { r with n := n, miss := r.miss + 1 } := by
  rw [SlotRec.countMiss, if_neg hst]
  unfold SlotRec.predicted
  split
  · exact ⟨_, rfl⟩
  · exact ⟨r.n, rfl⟩

theorem predictedEvents_frameEvents (k : SlotId) (st0 : CallState) (burst : Burst) (r : SlotRec) :
    FrameEvents k (predictedEvents k st0 burst r) := by
  unfold predictedEvents
  split
  · exact .inr ⟨_, _, [], rfl, .inl rfl⟩
  · exact .inl rfl

/-- The threshold fits the counter (R243). -/
theorem lossN_params_le (mode : Mode) : lossN params mode ≤ 31 := by
  cases mode <;> decide

/-- One bit without a match over a call below the threshold: it grows older, or its age reaches the threshold and it is
lost, with one `LOST` (R241, R243). -/
theorem CallOfAge.completeIfDue {s : State} {k : SlotId} {age : Nat} (h : CallOfAge s.ptr age (s.slot k))
    (hp : s.ptr.toNat < 576) (hage : age < 576 * lossN params s.cfgMode) :
    (age + 1 < 576 * lossN params s.cfgMode ∧ AppendsLost k 0 s (completeIfDue params k s) ∧
      CallOfAge (position (s.ptr.toNat + 1)) (age + 1) ((completeIfDue params k s).slot k) ∧
      ((completeIfDue params k s).slot k).st = (s.slot k).st ∧
      ((completeIfDue params k s).slot k).expSync = (s.slot k).expSync) ∨
    (age + 1 = 576 * lossN params s.cfgMode ∧ AppendsLost k 1 s (completeIfDue params k s) ∧
      (completeIfDue params k s).slot k = SlotRec.reset) := by
  obtain ⟨hst, hseen, harmed⟩ := h
  by_cases hdue : (s.slot k).endPos = some s.ptr
  · rw [completeIfDue_of_eq params hdue]
    obtain ⟨n, hrec⟩ := missed_record (s.slot k) hst
    have hframe := completionFrame_of_missed (P := params) hseen
    rw [hrec] at hframe
    obtain ⟨hperiod, -⟩ := harmed.next_of_due (r' := s.slot k) hp hdue rfl
    have hwrap := lossN_params_le s.cfgMode
    have hcount : ((s.slot k).miss + 1).toNat = (s.slot k).miss.toNat + 1 := toNat_miss_add_one (by omega)
    by_cases hlost : age + 1 < 576 * lossN params s.cfgMode
    · have hkept : ((s.slot k).miss + 1).toNat < lossN params s.cfgMode := by omega
      have hcomplete := (complete_of_kept hframe (.inr hkept)).trans
        (congrArg (s.withCompletion k _) (SlotRec.disarmIfIdle_of_ne hst))
      obtain ⟨-, harmed'⟩ := harmed.next_of_due (r' := { s.slot k with n := n, miss := (s.slot k).miss + 1 }) hp hdue rfl
      refine .inl ⟨hlost, appendsLost_of_kept (predictedEvents_frameEvents _ _ _ _) hcomplete, ?_⟩
      rw [hcomplete, State.withCompletion_slot_self]
      exact ⟨⟨hst, hseen, by rw [hcount]; exact harmed'⟩, rfl, rfl⟩
    · have hreached : lossN params s.cfgMode ≤ ((s.slot k).miss + 1).toNat := by omega
      have hcomplete := complete_of_lost hframe hst hreached
      refine .inr ⟨by omega,
        ⟨_, predictedEvents_frameEvents k (s.slot k).st (s.burstOf k) (s.slot k), ?_⟩, ?_⟩
      · rw [hcomplete, State.clearIfDuplex_events, State.withCompletion_events, ← List.append_assoc]
        rfl
      · rw [hcomplete, State.clearIfDuplex_slot, State.withCompletion_slot_self]
  · rw [completeIfDue_of_ne params hdue]
    have hnext := harmed.next hp hdue
    refine .inl ⟨?_, .refl k s, ⟨hst, hseen, hnext⟩, rfl, rfl⟩
    obtain ⟨e, -, -, hnow⟩ := harmed
    obtain ⟨e', -, -, hthen⟩ := hnext
    have hlt := bitsUntil_lt s.ptr e
    have hlt' := bitsUntil_lt (position (s.ptr.toNat + 1)) e'
    omega

end Sys2Proof.Machine
end

section
/-! SUPPORT. What a record may be while no sync is found: a call that ages until it is lost, or a record that loses no call
in the time watched (43_slot_receiver.md R230–R245, R264, R266). -/

namespace Sys2Proof.Machine

open Sys2Proof.Config (Params)

/-! ### Watches -/

/-- A description of one slot record: the cursor, the age in bits, the `LOST` events it has given so far, the record. -/
abbrev Watch := BitVec 10 → Nat → Nat → SlotRec → Prop

/-- The age at which a call is lost: the threshold in periods of 576 bits (R243). -/
def lossAge (mode : Mode) : Nat := 576 * lossN params mode

/-- A record that was in a call with `ST` `st0` and `EXPSYNC` `x`: still that call, or lost with one `LOST`. -/
def CallWatch (mode : Mode) (st0 : CallState) (x : Option (BitVec 10)) : Watch := fun p age lost r =>
  (age < lossAge mode ∧ lost = 0 ∧ CallOfAge p age r ∧ r.st = st0 ∧ r.expSync = x) ∨
    (lossAge mode ≤ age ∧ lost = 1 ∧ r = SlotRec.reset)

/-- A record that was in no call, or had a match pending: while it is younger than the loss age and a period it gives no
`LOST`. It is disarmed, or the match is still pending, or its call began with the completion of that match. -/
def QuietWatch (mode : Mode) : Watch := fun p age lost r =>
  lossAge mode + 576 ≤ age ∨
    lost = 0 ∧ (r.endPos = none ∨ (r.seen = true ∧ ArmedAt p age 0 r) ∨ ∃ a, age = a + 576 ∧ CallOfAge p a r)

/-- One bit without a match keeps the watch of the slot it may complete. -/
def Watch.Advances (W : Watch) (mode : Mode) : Prop :=
  ∀ (s : State) (k : SlotId) (age lost : Nat), s.cfgMode = mode → s.ptr.toNat < 576 → W s.ptr age lost (s.slot k) →
    ∃ δ, AppendsLost k δ s (completeIfDue params k s) ∧
      W (position (s.ptr.toNat + 1)) (age + 1) (lost + δ) ((completeIfDue params k s).slot k)

/-- The reset of an IDLE record keeps the watch. -/
def Watch.KeptByReset (W : Watch) : Prop :=
  ∀ (p : BitVec 10) (age lost : Nat) (r : SlotRec), r.st = .idle → W p age lost r → W p age lost SlotRec.reset

/-- A disarmed slot is never due. -/
theorem completeIfDue_of_disarmed {s : State} {k : SlotId} (h : (s.slot k).endPos = none) :
    completeIfDue params k s = s :=
  completeIfDue_of_ne params (by rw [h]; exact Option.some_ne_none _ |>.symm)

theorem callWatch_advances (mode : Mode) (st0 : CallState) (x : Option (BitVec 10)) :
    Watch.Advances (CallWatch mode st0 x) mode := by
  rintro s k age lost rfl hp (⟨hage, rfl, hcall, hst, hx⟩ | ⟨hage, rfl, hreset⟩)
  · obtain ⟨hage', happends, hcall', hst', hx'⟩ | ⟨hage', happends, hreset⟩ := hcall.completeIfDue hp hage
    · exact ⟨0, happends, .inl ⟨hage', rfl, hcall', hst'.trans hst, hx'.trans hx⟩⟩
    · exact ⟨1, happends, .inr ⟨Nat.le_of_eq hage'.symm, rfl, hreset⟩⟩
  · rw [completeIfDue_of_disarmed (by rw [hreset]; rfl)]
    exact ⟨0, .refl k s, .inr ⟨by omega, rfl, hreset⟩⟩

theorem callWatch_keptByReset (mode : Mode) (st0 : CallState) (x : Option (BitVec 10)) :
    Watch.KeptByReset (CallWatch mode st0 x) := by
  rintro p age lost r hidle (⟨-, -, ⟨hst, -⟩, -⟩ | ⟨hage, hlost, -⟩)
  · exact absurd hidle hst
  · exact .inr ⟨hage, hlost, rfl⟩

/-- The completion of a pending match in single-radio mode loses no call: the record starts again at `MISS` 0 (R233,
R236–R238). -/
theorem complete_of_pending {s : State} {k : SlotId} (hmode : s.cfgMode = .single) (hseen : (s.slot k).seen = true) :
    ∃ r : SlotRec, AppendsLost k 0 s (complete params k s) ∧ (complete params k s).slot k = r.disarmIfIdle ∧ r.seen = false ∧
      r.miss = 0 ∧ r.endPos = (s.slot k).endPos := by
  have hframe : ∃ es r, completionFrame params k s = s.withCompletion k es r ∧ FrameEvents k es ∧ r.seen = false ∧
      r.miss = 0 ∧ r.endPos = (s.slot k).endPos := by
    obtain hunseen | ⟨-, hkind⟩ | ⟨-, -, hduplex, -⟩ | ⟨-, hkind, haccepted⟩ := completion_kinds params k s
    · cases hunseen.symm.trans hseen
    · exact ⟨_, _, completionFrame_of_voice hseen hkind, .inr ⟨_, _, [], rfl, .inl rfl⟩, rfl, rfl, rfl⟩
    · cases hduplex.symm.trans hmode
    · have hcomplete := completionFrame_of_accepted hseen hkind haccepted
      obtain ⟨st, n, tag, hrec, -⟩ := subTypeWrites_cases (params.classify (s.burstOf k)).2 (s.slot k).st
        { s.slot k with seen := false, miss := 0 }
      rw [hrec] at hcomplete
      exact ⟨_, _, hcomplete, .inr ⟨_, _, _, rfl, lcEvents_frameEvents params k _ _⟩, rfl, rfl, rfl⟩
  obtain ⟨es, r, hcomplete, hes, hunseen, hmiss, hend⟩ := hframe
  have hkept : r.miss.toNat < lossN params s.cfgMode := by
    rw [hmiss]
    exact lossN_params_pos s.cfgMode
  have hcomplete' := complete_of_kept hcomplete (.inr hkept)
  refine ⟨r, appendsLost_of_kept hes hcomplete', ?_, hunseen, hmiss, hend⟩
  rw [hcomplete', State.withCompletion_slot_self]

theorem quietWatch_advances : Watch.Advances (QuietWatch .single) .single := by
  intro s k age lost hmode hp hwatch
  by_cases hage : lossAge .single + 576 ≤ age + 1
  · obtain ⟨δ, happends⟩ := exists_appendsLost k s
    exact ⟨δ, happends, .inl hage⟩
  obtain hold | ⟨rfl, hdisarmed | ⟨hseen, harmed⟩ | ⟨a, rfl, hcall⟩⟩ := hwatch
  · exact absurd (Nat.le_succ_of_le hold) hage
  · rw [completeIfDue_of_disarmed hdisarmed]
    exact ⟨0, .refl k s, .inr ⟨rfl, .inl hdisarmed⟩⟩
  · by_cases hdue : (s.slot k).endPos = some s.ptr
    · obtain ⟨r, happends, hslot, hunseen, hmiss, hend⟩ := complete_of_pending hmode hseen
      rw [completeIfDue_of_eq params hdue, hslot]
      refine ⟨0, happends, .inr ⟨rfl, ?_⟩⟩
      by_cases hidle : r.st = .idle
      · exact .inl (by rw [SlotRec.disarmIfIdle_of_idle hidle])
      · obtain ⟨hperiod, e, he, hend', hnext⟩ := harmed.next_of_due hp hdue hend
        rw [SlotRec.disarmIfIdle_of_ne hidle]
        exact .inr (.inr ⟨0, by omega, hidle, hunseen, e, he, hend', by rw [hmiss]; simp; omega⟩)
    · rw [completeIfDue_of_ne params hdue]
      exact ⟨0, .refl k s, .inr ⟨rfl, .inr (.inl ⟨hseen, harmed.next hp hdue⟩)⟩⟩
  · have hbelow : a < 576 * lossN params s.cfgMode := by
      rw [hmode]
      unfold lossAge at hage
      omega
    obtain ⟨-, happends, hcall', -⟩ | ⟨hlost, -⟩ := hcall.completeIfDue hp hbelow
    · exact ⟨0, happends, .inr ⟨rfl, .inr (.inr ⟨a + 1, by omega, hcall'⟩)⟩⟩
    · rw [hmode] at hlost
      unfold lossAge at hage
      omega

theorem quietWatch_keptByReset (mode : Mode) : Watch.KeptByReset (QuietWatch mode) := by
  rintro p age lost r - (hold | ⟨hlost, -⟩)
  · exact .inl hold
  · exact .inr ⟨hlost, .inl rfl⟩

/-! ### One bit -/

/-- A bit that finds no sync is stored, completes what is due and runs the flywheel (R211). -/
theorem receiveBit_of_noSync {b : Bool} {s : State} (hdelay : s.delayCnt = 0)
    (hnone : syncFound params (storeBit b s) = none) :
    receiveBit params b s =
      advancePtr (flywheel params (completeIfDue params .one (completeIfDue params .zero (storeBit b s)))) := by
  rw [receiveBit, if_pos hdelay, acceptBit, syncStep_of_none hnone]

/-- Step 3 with both records watched: each is advanced by its own completion. -/
theorem completions_watched {mode : Mode} {W0 W1 : Watch} (h0 : W0.Advances mode) (h1 : W1.Advances mode) {s : State}
    {age0 age1 lost0 lost1 : Nat} (hmode : s.cfgMode = mode) (hp : s.ptr.toNat < 576)
    (w0 : W0 s.ptr age0 lost0 (s.slot .zero)) (w1 : W1 s.ptr age1 lost1 (s.slot .one)) :
    let t := completeIfDue params .one (completeIfDue params .zero s)
    ∃ δ0 δ1, lostCount t.events = lostCount s.events + δ0 + δ1 ∧
      W0 (position (s.ptr.toNat + 1)) (age0 + 1) (lost0 + δ0) (t.slot .zero) ∧
      W1 (position (s.ptr.toNat + 1)) (age1 + 1) (lost1 + δ1) (t.slot .one) := by
  obtain ⟨δ0, hlost0, w0'⟩ := h0 s .zero age0 lost0 hmode hp w0
  obtain ⟨-, -, hmode0, hptr0, -, -, -, -, -, -, -, -, -, -, hother0, -⟩ := completeIfDue_frame params .zero s
  generalize completeIfDue params .zero s = u at *
  rw [← hptr0] at w0' w1 hp ⊢
  have hone : u.slot .one = s.slot .one := hother0
  obtain ⟨δ1, hlost1, w1'⟩ := h1 u .one age1 lost1 (hmode0.trans hmode) hp (hone ▸ w1)
  obtain ⟨-, -, -, -, -, -, -, -, -, -, -, -, -, -, hother1, -⟩ := completeIfDue_frame params .one u
  have hzero : (completeIfDue params .one u).slot .zero = u.slot .zero := hother1
  exact ⟨δ0, δ1, by rw [hlost1.lostCount, hlost0.lostCount], hzero ▸ w0', w1'⟩

/-- Step 3 with slot `k` watched: the other slot's completion keeps its record and its `LOST` events. -/
theorem completions_watched_slot {mode : Mode} {W : Watch} (h : W.Advances mode) {s : State} (k : SlotId)
    {age lost : Nat} (hmode : s.cfgMode = mode) (hp : s.ptr.toNat < 576) (w : W s.ptr age lost (s.slot k)) :
    let t := completeIfDue params .one (completeIfDue params .zero s)
    ∃ δ, t.events.count (.lost k) = s.events.count (.lost k) + δ ∧
      W (position (s.ptr.toNat + 1)) (age + 1) (lost + δ) (t.slot k) := by
  obtain ⟨-, -, hmode0, hptr0, -, -, -, -, -, -, -, -, -, -, hother0, -⟩ := completeIfDue_frame params .zero s
  cases k with
  | zero =>
    obtain ⟨δ, hlost, w'⟩ := h s .zero age lost hmode hp w
    obtain ⟨-, -, -, -, -, -, -, -, -, -, -, -, -, -, hother1, -⟩ :=
      completeIfDue_frame params .one (completeIfDue params .zero s)
    have hzero : (completeIfDue params .one (completeIfDue params .zero s)).slot .zero =
        (completeIfDue params .zero s).slot .zero := hother1
    obtain ⟨_, hlost1⟩ := exists_appendsLost .one (completeIfDue params .zero s)
    exact ⟨δ, by rw [hlost1.count_other (by decide), hlost.count_self], hzero ▸ w'⟩
  | one =>
    obtain ⟨_, hlost0⟩ := exists_appendsLost .zero s
    generalize completeIfDue params .zero s = u at *
    rw [← hptr0] at w hp ⊢
    have hone : u.slot .one = s.slot .one := hother0
    obtain ⟨δ, hlost, w'⟩ := h u .one age lost (hmode0.trans hmode) hp (hone ▸ w)
    exact ⟨δ, by rw [hlost.count_self, hlost0.count_other (by decide)], w'⟩

/-- Step 4 keeps the records, exchanges them, or resets both where both are IDLE (R264, R266). -/
theorem flywheel_slots {s : State} (hmis : s.misMatch.toNat ≤ 1) :
    (∀ j, (flywheel params s).slot j = s.slot j) ∨ (∀ j, (flywheel params s).slot j = s.slot j.other) ∨
      ∀ j, (s.slot j).st = .idle ∧ (flywheel params s).slot j = SlotRec.reset := by
  obtain ⟨-, h⟩ | ⟨-, -, -, h⟩ | ⟨-, -, -, h⟩ := flywheel_cases params s <;> rw [h]
  · exact .inl fun _ => rfl
  · exact .inl fun j => by cases j <;> rfl
  · cases hunlock : unlockDue params (periodCount params s) with
    | true =>
      obtain ⟨-, hidle0, hidle1⟩ := (unlockDue_periodCount_iff s).mp hunlock
      rw [periodEnd_of_unlock hunlock]
      refine .inr (.inr fun j => ?_)
      cases j
      · exact ⟨hidle0, rfl⟩
      · exact ⟨hidle1, rfl⟩
    | false =>
      rw [periodEnd_of_wrap hmis hunlock]
      cases phaseSwaps params s with
      | false => exact .inl fun j => by cases j <;> rfl
      | true => exact .inr (.inl fun j => by cases j <;> rfl)

/-! ### The whole receiver -/

/-- One record under each watch, whichever the slots, and `c` `LOST` events besides those they have given. -/
def BothWatched (WA WB : Watch) (c : Nat) (p : BitVec 10) (ageA ageB : Nat) (s : State) : Prop :=
  ∃ j lostA lostB, lostCount s.events = c + lostA + lostB ∧ WA p ageA lostA (s.slot j) ∧ WB p ageB lostB (s.slot j.other)

theorem BothWatched.completions {mode : Mode} {WA WB : Watch} (hA : WA.Advances mode) (hB : WB.Advances mode) {c : Nat}
    {s : State} {ageA ageB : Nat} (hmode : s.cfgMode = mode) (hp : s.ptr.toNat < 576)
    (h : BothWatched WA WB c s.ptr ageA ageB s) :
    BothWatched WA WB c (position (s.ptr.toNat + 1)) (ageA + 1) (ageB + 1)
      (completeIfDue params .one (completeIfDue params .zero s)) := by
  obtain ⟨j, lostA, lostB, hcount, wA, wB⟩ := h
  cases j with
  | zero =>
    obtain ⟨δA, δB, hcount', wA', wB'⟩ := completions_watched hA hB hmode hp wA wB
    exact ⟨.zero, _, _, by rw [hcount', hcount]; omega, wA', wB'⟩
  | one =>
    obtain ⟨δB, δA, hcount', wB', wA'⟩ := completions_watched hB hA hmode hp wB wA
    exact ⟨.one, _, _, by rw [hcount', hcount]; omega, wA', wB'⟩

theorem BothWatched.flywheel {WA WB : Watch} (hA : WA.KeptByReset) (hB : WB.KeptByReset) {c : Nat} {p : BitVec 10}
    {ageA ageB : Nat} {s : State} (hmis : s.misMatch.toNat ≤ 1) (h : BothWatched WA WB c p ageA ageB s) :
    BothWatched WA WB c p ageA ageB (Machine.flywheel params s) := by
  obtain ⟨j, lostA, lostB, hcount, wA, wB⟩ := h
  obtain ⟨-, -, -, -, -, -, hevents, -⟩ := flywheel_frame params s
  rw [← hevents] at hcount
  obtain hkept | hswapped | hreset := flywheel_slots hmis
  · exact ⟨j, lostA, lostB, hcount, hkept j ▸ wA, hkept j.other ▸ wB⟩
  · refine ⟨j.other, lostA, lostB, hcount, ?_, ?_⟩
    · rw [hswapped, SlotId.other_other]
      exact wA
    · rw [hswapped, SlotId.other_other]
      exact wB
  · refine ⟨j, lostA, lostB, hcount, ?_, ?_⟩
    · rw [(hreset j).2]
      exact hA _ _ _ _ (hreset j).1 wA
    · rw [(hreset j.other).2]
      exact hB _ _ _ _ (hreset j.other).1 wB

/-- A run of bits without a sync keeps what every such bit keeps. -/
theorem receiveBits_induction {mode : Mode} {R : Nat → State → Prop}
    (hbit : ∀ i s b, s.Inv → s.delayCnt = 0 → s.cfgMode = mode → syncFound params (storeBit b s) = none → R i s →
      R (i + 1) (receiveBit params b s)) :
    ∀ (bs : List Bool) (i : Nat) (s : State), s.Inv → s.delayCnt = 0 → s.cfgMode = mode → NoSyncRun bs s → R i s →
      R (i + bs.length) (receiveBits bs s) := by
  intro bs
  induction bs with
  | nil => exact fun i s _ _ _ _ hR => hR
  | cons b bs ih =>
    rintro i s hinv hdelay hmode ⟨hnone, hrun⟩ hR
    have haccept : receiveBit params b s = acceptBit params b s := if_pos hdelay
    obtain ⟨-, -, hmode', -, hdelay', -⟩ := acceptBit_frame params b s
    rw [← haccept] at hmode' hdelay'
    have hrest := ih (i + 1) _ (hinv.receiveBit b) (hdelay'.trans hdelay) (hmode'.trans hmode) hrun
      (hbit i s b hinv hdelay hmode hnone hR)
    rwa [List.length_cons, Nat.add_comm bs.length, ← Nat.add_assoc]

/-- A single-radio receiver with both records watched, over a run of bits without a sync. -/
theorem BothWatched.receiveBits {WA WB : Watch} (hA : WA.Advances .single) (hB : WB.Advances .single)
    (hA' : WA.KeptByReset) (hB' : WB.KeptByReset) {c ageA ageB : Nat} {bs : List Bool} {s : State} (hinv : s.Inv)
    (hdelay : s.delayCnt = 0) (hmode : s.cfgMode = .single) (hrun : NoSyncRun bs s)
    (h : BothWatched WA WB c s.ptr ageA ageB s) :
    BothWatched WA WB c (Machine.receiveBits bs s).ptr (ageA + bs.length) (ageB + bs.length)
      (Machine.receiveBits bs s) := by
  have hall := receiveBits_induction (R := fun i t => BothWatched WA WB c t.ptr (ageA + i) (ageB + i) t) ?_ bs 0 s hinv
    hdelay hmode hrun h
  · simpa using hall
  intro i t b hinv hdelay hmode hnone hwatched
  have hstored : BothWatched WA WB c (storeBit b t).ptr (ageA + i) (ageB + i) (storeBit b t) := hwatched
  have hcompleted := hstored.completions (s := storeBit b t) hA hB hmode hinv.ptr_lt
  obtain ⟨-, -, -, hptr, -, -, -, -, hmis, -⟩ := completions_frame params (storeBit b t)
  have hfly := hcompleted.flywheel hA' hB' (hmis ▸ hinv.misMatch_le)
  obtain ⟨-, -, -, hptr', -⟩ := flywheel_frame params
    (completeIfDue params .one (completeIfDue params .zero (storeBit b t)))
  rw [receiveBit_of_noSync hdelay hnone, advancePtr_ptr, hptr', hptr]
  exact hfly

end Sys2Proof.Machine
end

section
/-! SUPPORT. Where the watches of a run begin and what they say at its end (43_slot_receiver.md R241, R243). -/

namespace Sys2Proof.Machine

open Sys2Proof.Config (Params)

/-- A duplex receiver with slot `k` watched, over a run of bits without a sync: the other slot gives no `LOST(k)`. -/
theorem receiveBits_watched_slot {W : Watch} (hW : W.Advances .duplex) {k : SlotId} {c age : Nat} {bs : List Bool}
    {s : State} (hinv : s.Inv) (hdelay : s.delayCnt = 0) (hmode : s.cfgMode = .duplex) (hrun : NoSyncRun bs s)
    (hcount : s.events.count (.lost k) = c) (hwatch : W s.ptr age 0 (s.slot k)) :
    ∃ lost, (receiveBits bs s).events.count (.lost k) = c + lost ∧
      W (receiveBits bs s).ptr (age + bs.length) lost ((receiveBits bs s).slot k) := by
  have hall := receiveBits_induction
    (R := fun i t => ∃ lost, t.events.count (.lost k) = c + lost ∧ W t.ptr (age + i) lost (t.slot k)) ?_ bs 0 s hinv
    hdelay hmode hrun ⟨0, hcount, hwatch⟩
  · simpa using hall
  rintro i t b hinv hdelay hmode hnone ⟨lost, hcount, hwatch⟩
  have hstored : W (storeBit b t).ptr (age + i) lost ((storeBit b t).slot k) := by simpa using hwatch
  obtain ⟨δ, hcount', hwatch'⟩ := completions_watched_slot hW (s := storeBit b t) k hmode hinv.ptr_lt hstored
  obtain ⟨-, -, hmode', hptr, -⟩ := completions_frame params (storeBit b t)
  rw [receiveBit_of_noSync hdelay hnone, flywheel_of_off params (.inl (hmode'.trans hmode))]
  refine ⟨lost + δ, ?_, ?_⟩
  · rw [advancePtr_events, hcount', storeBit_events, hcount, Nat.add_assoc]
  · rw [advancePtr_ptr, hptr, advancePtr_slot]
    exact hwatch'

/-- A record in a call or with a match pending is armed for a position of the buffer (R51, R52). -/
theorem SlotRec.Inv.armedAt {bound : Nat} {r : SlotRec} (h : r.Inv bound) (harmed : r.st ≠ .idle ∨ r.seen = true)
    (p : BitVec 10) (m : Nat) : ∃ q < 576, ArmedAt p (576 * m + q) m r := by
  obtain ⟨e, -, -, hend⟩ := h.armed harmed
  have hlt := bitsUntil_lt p (position (e.toNat + 108))
  exact ⟨575 - bitsUntil p (position (e.toNat + 108)), by omega, _, position_lt _, hend, by omega⟩

theorem SlotRec.Inv.callOfAge {bound : Nat} {r : SlotRec} (h : r.Inv bound) (hst : r.st ≠ .idle) (hseen : r.seen = false)
    (p : BitVec 10) : ∃ q < 576, CallOfAge p (576 * r.miss.toNat + q) r := by
  obtain ⟨q, hq, harmed⟩ := h.armedAt (.inl hst) p r.miss.toNat
  exact ⟨q, hq, hst, hseen, harmed⟩

/-- The miss count of a call is the whole periods in its age. -/
theorem CallOfAge.miss_eq {p : BitVec 10} {age : Nat} {r : SlotRec} (h : CallOfAge p age r) :
    r.miss.toNat = age / 576 := by
  obtain ⟨-, -, e, -, -, hage⟩ := h
  have hlt := bitsUntil_lt p e
  omega

/-- Below the loss age the watched call is still there; from it on it has been lost once. -/
theorem CallWatch.of_lt {mode : Mode} {st0 : CallState} {x : Option (BitVec 10)} {p : BitVec 10} {age lost : Nat}
    {r : SlotRec} (h : CallWatch mode st0 x p age lost r) (hage : age < lossAge mode) :
    lost = 0 ∧ r.miss.toNat = age / 576 ∧ r.st = st0 ∧ r.expSync = x := by
  obtain ⟨-, hlost, hcall, hst, hx⟩ | ⟨hge, -⟩ := h
  · exact ⟨hlost, hcall.miss_eq, hst, hx⟩
  · exact absurd hage (Nat.not_lt.mpr hge)

theorem CallWatch.of_le {mode : Mode} {st0 : CallState} {x : Option (BitVec 10)} {p : BitVec 10} {age lost : Nat}
    {r : SlotRec} (h : CallWatch mode st0 x p age lost r) (hage : lossAge mode ≤ age) :
    lost = 1 ∧ r = SlotRec.reset := by
  obtain ⟨hlt, -⟩ | ⟨-, hlost⟩ := h
  · exact absurd hlt (Nat.not_lt.mpr hage)
  · exact hlost

theorem CallWatch.lost_le {mode : Mode} {st0 : CallState} {x : Option (BitVec 10)} {p : BitVec 10} {age lost : Nat}
    {r : SlotRec} (h : CallWatch mode st0 x p age lost r) : lost ≤ 1 := by
  obtain ⟨-, rfl, -⟩ | ⟨-, rfl, -⟩ := h
  · exact Nat.zero_le 1
  · exact Nat.le_refl 1

theorem QuietWatch.lost_eq_zero {mode : Mode} {p : BitVec 10} {age lost : Nat} {r : SlotRec}
    (h : QuietWatch mode p age lost r) (hage : age < lossAge mode + 576) : lost = 0 := by
  obtain hge | ⟨hlost, -⟩ := h
  · exact absurd hage (Nat.not_lt.mpr hge)
  · exact hlost

/-- A call at `MISS` 0 begins its watch within its first period. -/
theorem exists_callWatch {mode : Mode} {r : SlotRec} (hinv : r.Inv (lossN params mode)) (hst : r.st ≠ .idle)
    (hseen : r.seen = false) (p : BitVec 10) :
    ∃ q < 576, CallWatch mode r.st r.expSync p (576 * r.miss.toNat + q) 0 r := by
  obtain ⟨q, hq, hcall⟩ := hinv.callOfAge hst hseen p
  have hmiss := hinv.miss_lt
  exact ⟨q, hq, .inl ⟨by unfold lossAge; omega, rfl, hcall, rfl, rfl⟩⟩

/-- A record in no call, or with a match pending, begins its watch within its first period. -/
theorem exists_quietWatch {mode : Mode} {r : SlotRec} (hinv : r.Inv (lossN params mode))
    (hother : ¬ (r.st ≠ .idle ∧ r.seen = false)) (p : BitVec 10) : ∃ q < 576, QuietWatch mode p q 0 r := by
  by_cases hseen : r.seen = true
  · obtain ⟨q, hq, harmed⟩ := hinv.armedAt (.inr hseen) p 0
    rw [Nat.mul_zero, Nat.zero_add] at harmed
    exact ⟨q, hq, .inr ⟨rfl, .inr (.inl ⟨hseen, harmed⟩)⟩⟩
  · have hunseen : r.seen = false := by simpa using hseen
    have hidle : r.st = .idle := by
      by_contra hst
      exact hother ⟨hst, hunseen⟩
    exact ⟨0, by decide, .inr ⟨rfl, .inl (hinv.disarmed hidle hunseen).2⟩⟩

theorem lossAge_duplex : lossAge .duplex = 576 * 13 := rfl

theorem lossAge_single : lossAge .single = 576 * 30 := rfl

/-- The other record of a single-radio receiver over `n` periods: at most the one `LOST` of its own call, which has come
by the threshold; none where it has no call to lose. -/
theorem exists_otherWatch {r : SlotRec} (hinv : r.Inv (lossN params .single)) (p : BitVec 10) :
    let call := if r.st ≠ .idle ∧ r.seen = false then 1 else 0
    ∃ (W : Watch) (q : Nat), W.Advances .single ∧ W.KeptByReset ∧ W p q 0 r ∧
      ∀ p' n lost r', n ≤ 30 → W p' (q + 576 * n) lost r' → lost ≤ call ∧ (n = 30 → lost = call) := by
  intro call
  by_cases hcall : r.st ≠ .idle ∧ r.seen = false
  · obtain ⟨q, -, hwatch⟩ := exists_callWatch hinv hcall.1 hcall.2 p
    refine ⟨CallWatch .single r.st r.expSync, _, callWatch_advances _ _ _, callWatch_keptByReset _ _ _, hwatch, ?_⟩
    intro p' n lost r' _ hwatch'
    rw [show call = 1 from if_pos hcall]
    refine ⟨hwatch'.lost_le, fun hthreshold => (hwatch'.of_le ?_).1⟩
    rw [lossAge_single]
    omega
  · obtain ⟨q, hq, hwatch⟩ := exists_quietWatch hinv hcall p
    refine ⟨QuietWatch .single, q, quietWatch_advances, quietWatch_keptByReset _, hwatch, ?_⟩
    intro p' n lost r' hn hwatch'
    have hnone : lost = 0 := hwatch'.lost_eq_zero (by rw [lossAge_single]; omega)
    rw [show call = 0 from if_neg hcall, hnone]
    exact ⟨Nat.le_refl 0, fun _ => rfl⟩

end Sys2Proof.Machine
end

section
/-! Losing a call: the statement about a run of bits without a sync. -/

open Sys2Proof Sys2Proof.Machine

/-- Settles O55: the call's age at the end of the run is `576 * n` and less than a period more. -/
theorem thresholdMissesGiveOneLoss : Obligations.ThresholdMissesGiveOneLoss := by
  intro s k bs n hinv hdelay hst hseen hmiss hlen hrun t otherCall
  obtain ⟨q, hq, hwatch⟩ := exists_callWatch (hinv.slot_inv k) hst hseen s.ptr
  rw [show 576 * (s.slot k).miss.toNat + q = q by rw [hmiss]; simp] at hwatch
  refine ⟨fun hmode => ?_, fun hmode => ?_⟩
  · rw [hmode] at hwatch
    obtain ⟨lost, hcount, hend⟩ :=
      receiveBits_watched_slot (callWatch_advances _ _ _) hinv hdelay hmode hrun rfl hwatch
    rw [show receiveBits bs s = t from rfl] at hcount hend
    rw [hlen] at hend
    refine ⟨fun hn => ?_, fun hn => ?_⟩
    · obtain ⟨hnone, hperiods, hstill, -⟩ := hend.of_lt (by rw [lossAge_duplex]; omega)
      exact ⟨by rw [hcount, hnone, Nat.add_zero], by omega, hstill⟩
    · obtain ⟨hone, hreset⟩ := hend.of_le (by rw [lossAge_duplex]; omega)
      exact ⟨by rw [hcount, hone], hreset⟩
  · have hother := hinv.slot_inv k.other
    rw [hmode] at hwatch hother
    obtain ⟨W, q', hadvances, hkept, hwatch', hlosses⟩ := exists_otherWatch hother s.ptr
    have hstart : BothWatched _ W (lostCount s.events) s.ptr q q' s := ⟨k, 0, 0, rfl, hwatch, hwatch'⟩
    obtain ⟨j, lost, lost', hcount, hend, hend'⟩ := hstart.receiveBits (callWatch_advances _ _ _) hadvances
      (callWatch_keptByReset _ _ _) hkept hinv hdelay hmode hrun
    rw [show receiveBits bs s = t from rfl] at hcount hend hend'
    rw [hlen] at hend hend'
    refine ⟨fun hn => ?_, fun hn => ?_⟩
    · obtain ⟨hnone, hperiods, hstill, hsync⟩ := hend.of_lt (by rw [lossAge_single]; omega)
      have hle : lost' ≤ otherCall := (hlosses _ n _ _ (by omega) hend').1
      exact ⟨by omega, j, hsync, by omega, hstill⟩
    · obtain ⟨hone, hreset⟩ := hend.of_le (by rw [lossAge_single]; omega)
      have heq : lost' = otherCall := (hlosses _ n _ _ (by omega) hend').2 hn
      exact ⟨by omega, j, hreset⟩

end
